-- ==== Sys2Proof/Word.lean ====
section
/-! DEFINITION. The word types of the engine (R10, R296) and the finite tables the state is made of. -/

namespace Sys2Proof

/-- A byte: also an element of GF(2^8) (R10). -/
abbrev Byte := BitVec 8

/-- A register word: every access of the window is one aligned 32-bit word (R296). -/
abbrev Word := BitVec 32

/-- A little-endian byte string, byte 0 first (R10). -/
abbrev Bytes := List Byte

/-- An instance of the die, 0 to 7 (R1). -/
abbrev InstId := Fin 8

/-- A finite table keyed by numbers: keys strictly rising. A key that is not listed holds a default its reader names. -/
abbrev Tbl (α : Type) := List (Nat × α)

/-- The entry at a key, if listed. -/
def Tbl.find {α : Type} (k : Nat) : Tbl α → Option α
  | [] => none
  | (k', v) :: t => if k' = k then some v else Tbl.find k t

/-- The entry at a key, or the default. -/
def Tbl.getD {α : Type} (d : α) (k : Nat) (t : Tbl α) : α := (Tbl.find k t).getD d

/-- The table with the entry at a key replaced, or listed at its place. -/
def Tbl.put {α : Type} (k : Nat) (v : α) : Tbl α → Tbl α
  | [] => [(k, v)]
  | (k', v') :: t =>
    if k < k' then (k, v) :: (k', v') :: t
    else if k = k' then (k, v) :: t
    else (k', v') :: Tbl.put k v t

/-- The table without a key. -/
def Tbl.del {α : Type} (k : Nat) (t : Tbl α) : Tbl α := t.filter (fun p => p.1 ≠ k)

end Sys2Proof
end

