-- ==== Sys2Proof/Syntax.lean ====
section
/-! DEFINITION. The commands of the block: one constructor per row of spec/opcode_table.json, with the operands the
environment supplies (log entry 1), and the types of those operands. Field names are the spec's. -/

namespace Sys2Proof

/-- An initiator as the bus stamps it (R297, R299). SEQ is the sequencer image of one instance, so it carries it. -/
inductive Initiator where
  | mgmt
  | host
  | seq (inst : InstId)
  | dbg
  deriving DecidableEq, Repr

/-- A home: a 16-bit node and an 8-bit home index (R4). -/
structure Home where
  node : Nat
  idx  : Nat
  deriving DecidableEq, Repr

/-- The GRAD_IN descriptor (R167). `flags` is byte 3: bit 0 LAST_OF_LAYER, bit 1 INCOMPLETE. -/
structure GradDesc where
  kind         : Nat
  ctx          : Nat
  format       : Nat
  flags        : Nat
  layer        : Nat
  range        : Nat
  step         : Nat
  payloadBytes : Nat
  normSq       : Word
  deriving DecidableEq, Repr

/-- One item of GRAD_IN: its descriptor, the number of payload beats before the next start flag, the payload bytes
(unpadded) and whether some beat carried the poison flag (R170, R171). -/
structure GradItem where
  desc     : GradDesc
  beats    : Nat
  payload  : Bytes
  poisoned : Bool
  deriving DecidableEq, Repr

/-- What a 64-byte line of staging belongs to (R47, R139): a pending gradient, the granules of a backlog record, a chunk an update is
writing, a copy of fault service (context, class, range, chunk), or the buffers by staging address. -/
inductive StageUse where
  | gradient (ctx range step : Nat)
  | delta (record : Nat)
  | chunk (ctx cls range k : Nat)
  | copy (ctx cls range k : Nat)
  | buffers
  deriving DecidableEq, Repr

/-- A 64-byte line of staging, numbered from the start of what it belongs to (R139). -/
structure StageLine where
  use  : StageUse
  line : Nat
  deriving DecidableEq, Repr

/-- One run of the array self-test: the CRC-64 of each result beside the signature the sequencer image holds for it (R217). -/
abbrev TestRun := List (BitVec 64 × BitVec 64)

/-- An error of a memory (R62, R238, R247). `line`: bits of a stored line of the stack have changed; `flip` is XORed onto byte `pos` of
its 68 bytes, data bytes 0 to 63, then check bytes 64 to 67. `corrected`: a single-bit error of an SRAM word. `staging`: an
uncorrectable one in a line of staging SRAM. `sram`: one in any other SRAM of the instance. `mapWord`: a parity error of a word of
the valid map. -/
inductive Upset where
  | line (slot line pos : Nat) (flip : Byte)
  | corrected
  | staging (l : StageLine)
  | sram
  | mapWord (word : Nat)
  deriving DecidableEq, Repr

/-- What a read of host memory returned: bytes, or a failure kind, 1 poisoned completion, 2 Unsupported Request,
3 Completer Abort, 4 completion timeout (R287, R402). -/
inductive HostData where
  | data (bytes : Bytes)
  | error (kind : Nat)
  deriving DecidableEq, Repr

/-- One read of the scrubber: the errors that have befallen the memories before it (R238, R247), and whether the oldest update in
flight is written back between the read's two looks at the chunk's record (R250). -/
structure SlotRead where
  upsets    : List Upset
  writeback : Bool
  deriving DecidableEq, Repr

/-- A map image as its read from host memory ends, and the errors of the memories it meets there (R67, R402). -/
structure MapSource where
  data   : HostData
  upsets : List Upset
  deriving DecidableEq, Repr

/-- A write of JOB_GO: its word, and the bytes the initiator has placed in buffers it owns, by offset (R216, R320, R389). -/
structure JobStart where
  value  : Word
  placed : List (Nat × Bytes)
  deriving DecidableEq, Repr

/-- The common fabric header as a receiver sees it (R256). The destination home is the instance the command names. -/
structure FabHdr where
  opcode     : Nat
  ctx        : Nat
  srcNode    : Nat
  srcHome    : Nat
  flagged    : Bool
  retransmit : Bool
  message    : Bool
  granules   : Nat
  ctxTag     : Nat
  mapVersion : Nat
  seq        : Nat
  tag        : Nat
  poison     : Nat
  deriving DecidableEq, Repr

/-- DELTA_XOR and SHADOW_PUT body (R92). -/
structure DeltaBody where
  stripe   : Nat
  row      : Nat
  srcPos   : Nat
  dstRole  : Nat
  dstIndex : Nat
  count    : Nat
  mask     : Nat
  step     : Nat
  prev     : Nat
  first    : Bool
  deriving DecidableEq, Repr

/-- COMMIT body (R93). -/
structure CommitBody where
  stripe        : Nat
  row           : Nat
  srcPos        : Nat
  dstRole       : Nat
  dstIndex      : Nat
  first         : Bool
  reconstructed : Bool
  mask          : Nat
  step          : Nat
  prev          : Nat
  digest        : BitVec 64
  deriving DecidableEq, Repr

/-- A ledger entry: the 64-byte header and its unpadded payload (R94). -/
structure LedgerEntry where
  range        : Nat
  step         : Nat
  srcNode      : Nat
  srcHome      : Nat
  kind         : Nat
  layer        : Nat
  format       : Nat
  incomplete   : Bool
  payloadBytes : Nat
  crc          : BitVec 64
  payload      : Bytes
  deriving DecidableEq, Repr

/-- LEDGER_RETIRE and LEDGER_READ body (R95, R190). -/
structure RetireBody where
  range      : Nat
  step       : Nat
  layer      : Nat
  kind       : Nat
  scalarNode : Nat
  scalarHome : Nat
  deriving DecidableEq, Repr

/-- FRAG_READ body (R259). -/
structure FragBody where
  stripe  : Nat
  row     : Nat
  role    : Nat
  index   : Nat
  mode    : Nat
  mask    : Nat
  version : Nat
  deriving DecidableEq, Repr

/-- REBUILD_PUT body (R149). -/
structure RebuildBody where
  stripe        : Nat
  row           : Nat
  srcPos        : Nat
  dstRole       : Nat
  dstIndex      : Nat
  count         : Nat
  mask          : Nat
  version       : Nat
  prev          : Nat
  full          : Bool
  probe         : Bool
  zero          : Bool
  reconstructed : Bool
  shadowApprox  : Bool
  digest        : BitVec 64
  deriving DecidableEq, Repr

/-- CUTOVER body (R154). -/
structure CutoverBody where
  range         : Nat
  step          : Nat
  rangeDigest   : BitVec 64
  reconstructed : Bool
  deriving DecidableEq, Repr

/-- A re-emit request (R230). -/
structure ReemitReq where
  ctx        : Nat
  layer      : Nat
  firstRange : Nat
  rangeCount : Nat
  step       : Nat
  deriving DecidableEq, Repr

/-- A home of a lost set with the cause of R118 it carries (R121). -/
structure LostHome where
  home  : Home
  cause : Nat
  deriving DecidableEq, Repr

/-- DEGRADED body (R121). -/
structure DegradedBody where
  imageVersion : Nat
  detector     : Home
  entries      : List LostHome
  deriving DecidableEq, Repr

/-- MAP_HANDSHAKE body (R261). -/
structure HandshakeBody where
  imageVersion : Nat
  contract     : Nat
  ctxTag       : Nat
  channelReset : Bool
  epoch        : Nat
  seqBase      : Nat
  deriving DecidableEq, Repr

/-- HEARTBEAT body (R117) with the node the fabric stamped. -/
structure HeartbeatBody where
  srcNode : Nat
  home    : Nat
  state   : Nat
  seq     : Nat
  epoch   : Nat
  deriving DecidableEq, Repr

/-- A version-vector entry (R96). -/
structure VecEntry where
  version       : Nat
  digest        : BitVec 64
  committed     : Bool
  reconstructed : Bool
  deriving DecidableEq, Repr

/-- The extension and payload a RESPONSE may carry (R264, R260, R262, R122, R190). -/
inductive RespExt where
  | none
  | lostSet (d : DegradedBody)
  | handshake (h : HandshakeBody)
  | frag (version : Nat) (digest : BitVec 64) (attr : Nat) (mask : Nat) (granules : List Bytes) (vector : List VecEntry)
  | floor (set : Bool) (floor : Nat) (entry : Option LedgerEntry)
  deriving DecidableEq, Repr

/-- RESPONSE body (R264). -/
structure RespBody where
  status     : Nat
  reason     : Nat
  info       : Nat
  opcode     : Nat
  retryAfter : Nat
  ext        : RespExt
  deriving DecidableEq, Repr

/-- The state of an image slot in management flash (R336). -/
inductive SlotState where
  | erased | downloading | downloaded | verified | bad
  deriving DecidableEq, Repr

/-- An instance's boot record (R336): `activeB` names slot B, `tryNext` the slot of TRY. -/
structure BootRec where
  activeB   : Bool
  tryNext   : Option Bool
  trialUsed : Bool
  deriving DecidableEq, Repr

/-- The DMC's flash as it finds it at a boot, any DOWNLOADED slot already verified (R336, R337). -/
structure FlashView where
  slotA : SlotState
  slotB : SlotState
  boot  : BootRec
  deriving DecidableEq, Repr

/-- The commands, in the table's order. `i` is the instance; register rows carry the initiator and reach the
instance it has selected. -/
inductive Instr where
  | gradient (i : InstId) (g : GradItem)
  | endOfStep (i : InstId) (g : GradItem)
  | norm (i : InstId) (g : GradItem)
  | beatsWithoutDescriptor (i : InstId) (beats : Nat)
  | wake (i : InstId) (ctx : Nat)
  | updateStart (i : InstId) (upsets : List Upset)
  | updateWriteback (i : InstId)
  | emitRecordSend (i : InstId)
  | emitBackpressure (i : InstId) (withheld : Bool)
  | codingQueueServe (i : InstId)
  | stepClose (i : InstId) (ctx : Nat) (step : Nat)
  | normLate (i : InstId) (ctx : Nat) (step : Nat)
  | refreshDone (i : InstId) (ctx : Nat) (layer : Nat) (tile : Nat)
  | reemitRequest (i : InstId) (r : ReemitReq)
  | reemitServe (i : InstId)
  | deltaXor (i : InstId) (h : FabHdr) (b : DeltaBody) (payload : List Bytes)
  | shadowPut (i : InstId) (h : FabHdr) (b : DeltaBody) (payload : List Bytes)
  | commit (i : InstId) (h : FabHdr) (b : CommitBody)
  | ledgerPut (i : InstId) (h : FabHdr) (e : LedgerEntry)
  | ledgerRetire (i : InstId) (h : FabHdr) (b : RetireBody)
  | ledgerRead (i : InstId) (h : FabHdr) (b : RetireBody)
  | fragRead (i : InstId) (h : FabHdr) (b : FragBody)
  | rebuildPut (i : InstId) (h : FabHdr) (b : RebuildBody) (payload : List Bytes)
  | cutover (i : InstId) (h : FabHdr) (b : CutoverBody)
  | gradForward (i : InstId) (h : FabHdr) (e : LedgerEntry)
  | reemitForward (i : InstId) (h : FabHdr) (r : ReemitReq)
  | degraded (i : InstId) (h : FabHdr) (b : DegradedBody)
  | mapHandshake (i : InstId) (h : FabHdr) (b : HandshakeBody)
  | heartbeat (i : InstId) (b : HeartbeatBody)
  | response (i : InstId) (h : FabHdr) (b : RespBody)
  | fabricTimeout (i : InstId) (entry : Nat)
  | parkedChannelOffer (i : InstId) (peer : Home)
  | offWaitOffer (i : InstId) (peer : Home)
  | retryAfterExpiry (i : InstId) (op : Nat)
  | joinExpiry (i : InstId) (ctx : Nat) (peer : Home)
  | routeNotice (i : InstId) (node : Nat) (direct : Bool)
  | bandwidthNotice (i : InstId) (node : Nat) (fraction : Nat)
  | lossNotice (i : InstId) (node : Nat)
  | lossCleared (i : InstId) (node : Nat)
  | heartbeatSend (i : InstId)
  | silenceTimeout (i : InstId) (peer : Home)
  | decodeDone (i : InstId) (job : Nat)
  | rollForward (i : InstId) (ctx : Nat) (range : Nat)
  | vectorReread (i : InstId) (job : Nat)
  | vectorAgreeTimeout (i : InstId) (job : Nat)
  | offSourceReplan (i : InstId) (job : Nat)
  | chunkRepairDone (i : InstId) (job : Nat)
  | rowRepairDone (i : InstId) (job : Nat)
  | hbmChannelFailure (i : InstId)
  | scrubLapStart (i : InstId)
  | scrubSlotRead (i : InstId) (read : SlotRead)
  | scrubLapDone (i : InstId) (durationMs : Nat)
  | lapLate (i : InstId)
  | scrubForced (i : InstId)
  | marginSample (i : InstId) (hbmTiming : Nat) (hbmVoltage : Nat)
  | marginRestart (i : InstId)
  | selfTestDone (i : InstId) (nominal : TestRun) (steps : List TestRun)
  | warningEvaluation (i : InstId)
  | lifeRecordPeriodic (i : InstId)
  | poolRebuild (i : InstId)
  | dozeAfter (i : InstId)
  | napAfter (i : InstId)
  | powerStateGrant (i : InstId) (granted : Bool)
  | sleepEntryDone (i : InstId)
  | wakeDone (i : InstId)
  | wakeTimeout (i : InstId)
  | offRequest (i : InstId) (spill : Bool)
  | offDrainDone (i : InstId)
  | offDrain (i : InstId)
  | offRollbackDone (i : InstId)
  | offSaveDone (i : InstId)
  | offEntered (i : InstId)
  | returnRequest (i : InstId)
  | returnPowerUpDone (i : InstId)
  | returnStateRestored (i : InstId) (upsets : List Upset)
  | returnTimeout (i : InstId)
  | imageDelivery (i : InstId) (flash : FlashView) (manifest : Bytes) (seqImage : Bytes) (progImage : Bytes)
  | programImageReplace (i : InstId) (manifest : Bytes) (progImage : Bytes)
  | diePowerOn
  | dieWarmReset (preserve : Bool)
  | instanceReset (i : InstId)
  | pllLock
  | sramClearDone (i : InstId)
  | pllLossOfLock
  | emergencyShutdown (i : InstId)
  | mapLoad (i : InstId) (source : MapSource)
  | mapCommit (init : Initiator) (guardB : Word)
  | commitPoint (i : InstId) (ctx : Nat)
  | rollbackDone (i : InstId) (ctx : Nat)
  | releaseDone (i : InstId) (ctx : Nat)
  | caravanSend (i : InstId)
  | cutoverSend (i : InstId) (ctx : Nat) (range : Nat)
  | cmdqPush (init : Initiator) (w : Word)
  | paramLoad (i : InstId) (source : HostData)
  | load (i : InstId)
  | coldLoad (i : InstId)
  | digestDump (i : InstId)
  | colonyCheck (i : InstId)
  | coldWrite (i : InstId)
  | eccTestWrite (i : InstId) (source : HostData)
  | eccTestRead (i : InstId)
  | pcieReadCompletion (i : InstId) (cmd : Nat) (chunk : Nat) (result : HostData)
  | nvmeCompletion (i : InstId) (ok : Bool) (bytes : Bytes)
  | guardTarget (init : Initiator) (page : Nat) (value : Word)
  | guardA (init : Initiator) (page : Nat) (value : Word)
  | guardTimeout (init : Initiator) (page : Nat) (inst : Nat)
  | resume (init : Initiator)
  | pause (init : Initiator)
  | evacuate (init : Initiator)
  | evacuateEnd (init : Initiator)
  | offline (init : Initiator)
  | precedenceWindowClose (i : InstId) (ctx : Nat)
  | instOffline (init : Initiator)
  | instEvacuateSet (init : Initiator)
  | instEvacuateClear (init : Initiator)
  | cmdqFlush (init : Initiator) (guardB : Word)
  | coldErase (init : Initiator) (guardB : Word)
  | detLock (init : Initiator)
  | muxEn (init : Initiator) (guardB : Word)
  | lock (init : Initiator) (page : Nat)
  | registerWrite (init : Initiator) (addr : Nat) (bytes : Nat) (value : Word)
  | ringMtail (init : Initiator) (page : Nat) (value : Word)
  | ringHtail (init : Initiator) (page : Nat) (value : Word)
  | ringIndex (init : Initiator) (page : Nat) (value : Word)
  | ologIndex (init : Initiator) (page : Nat) (value : Word)
  | recIndex (init : Initiator) (value : Word)
  | lostView (init : Initiator) (value : Word)
  | chanSel (init : Initiator) (value : Word)
  | normSel (init : Initiator) (value : Word)
  | progSel (init : Initiator) (value : Word)
  | paramSel (init : Initiator) (value : Word)
  | paramData (init : Initiator)
  | corrSel (init : Initiator) (value : Word)
  | shareSel (init : Initiator) (value : Word)
  | bufSel (init : Initiator) (value : Word)
  | headSel (init : Initiator) (value : Word)
  | lastSel (init : Initiator) (value : Word)
  | emitLastData (init : Initiator)
  | lastIndex (init : Initiator) (value : Word)
  | telemLastData (init : Initiator)
  | lifeData (init : Initiator)
  | lifeAck (init : Initiator) (value : Word)
  | epoch (init : Initiator) (inst : InstId) (value : Word)
  | uscalarArm (init : Initiator) (value : Word)
  | planFlush (init : Initiator) (value : Word)
  | cntLo (init : Initiator)
  | cntPresetHi (init : Initiator) (value : Word) (coincident : Bool)
  | freeze (init : Initiator) (value : Word)
  | timeLo (init : Initiator)
  | stepLo (init : Initiator)
  | baseStepLo (init : Initiator)
  | uactiveStepLo (init : Initiator)
  | floorLo (init : Initiator)
  | imageStepLo (init : Initiator)
  | allocReq (init : Initiator) (value : Word)
  | release (init : Initiator) (value : Word)
  | sizeApply (init : Initiator) (value : Word)
  | ctxMin (init : Initiator) (value : Word)
  | mboxSend (init : Initiator) (value : Word)
  | mboxPop (init : Initiator) (value : Word)
  | jobGo (init : Initiator) (go : JobStart)
  | arrayJobDone (i : InstId) (bank : Nat)
  | stepSize (init : Initiator) (value : Word)
  | stepTail (init : Initiator) (value : Word)
  | sizes (init : Initiator) (value : Word)
  | cplBaseHi (init : Initiator) (value : Word)
  | reserveExhausted (init : Initiator) (value : Word)
  | coldPriv (init : Initiator) (value : Word)
  | txData (init : Initiator) (value : Word)
  | rxData (init : Initiator)
  | muartCtl (init : Initiator) (value : Word)
  | muxSel (init : Initiator) (value : Word)
  | pinHandover
  | uartReceive (byte : Byte) (stopBit : Bool)
  | bridgeRead
  | bridgeWrite
  | bridgeFrameTimeout
  | gradInDescriptorPresented (i : InstId)
  | diePowerLoss
  | aonClockStop
  | uartTransmit
  deriving DecidableEq, Repr

end Sys2Proof
end

