-- ==== Sys2Proof/Decode.lean ====
section
/-! DEFINITION. Decoding of commands from words: no row of the opcode table carries bits, so no word spells a command. -/

namespace Sys2Proof

/-- The command a word spells by the table's bits. The table gives bits to no row: none. -/
def decodeTableWord (_nbits _w : Nat) : Option Instr := none

end Sys2Proof
end

