-- ==== Sys2Proof/Config.lean ====
section
/-! DEFINITION. What the Z9 die fixes and what the spec leaves open: opaque constants, so that no proof rests on a value. -/

namespace Sys2Proof.Config

/-- The node number the Z9 die sets (R363, "Set by the Z9 die"; log entry 6). -/
opaque node : Nat

/-- The zones of the partition each instance has of the NVMe namespace the DMC configures (R288; log entry 44). -/
opaque coldZones : Nat

/-- The n-th value the spec leaves open (log entry 9): nothing constrains it. -/
opaque freeValue : Nat → BitVec 64

/-- The byte that an ECC test read gives for each verdict of R239, which the spec does not code (R253; log entry 9). -/
opaque verdictByte : Nat → BitVec 8

/-- What the cells of the array hold while and after the n-th job of the array runs on a bank, which the spec gives for no command: the window
and the GF accumulator of each cell, and its two operand registers, sign bit over magnitude, the second in the upper half (R199; log
entry 141). -/
opaque cellWindow : Nat → Nat → BitVec 80
opaque cellGf : Nat → Nat → BitVec 8
opaque cellOperands : Nat → Nat → BitVec 18

end Sys2Proof.Config
end

