-- ==== Sys2Proof/Machine/Bits.lean ====
section
/-! DEFINITION. Little-endian fields (R10), bit fields of numbers, and small list helpers. -/

namespace Sys2Proof.Machine

/-- The little-endian number of a byte string (R10). -/
def leNat : Bytes → Nat
  | [] => 0
  | b :: t => b.toNat + 256 * leNat t

/-- The low `n` bytes of a number, byte 0 first (R10). -/
def natLe : Nat → Nat → Bytes
  | 0, _ => []
  | n + 1, v => BitVec.ofNat 8 v :: natLe n (v / 256)

/-- `n` bytes from offset `o`; bytes past the end read as zero. -/
def slice (o n : Nat) (b : Bytes) : Bytes :=
  let t := (b.drop o).take n
  t ++ List.replicate (n - t.length) 0

/-- The little-endian field of `n` bytes at offset `o`. -/
def field (o n : Nat) (b : Bytes) : Nat := leNat (slice o n b)

/-- Bits `hi` down to `lo` of a number. -/
def bits (v hi lo : Nat) : Nat := v / 2 ^ lo % 2 ^ (hi + 1 - lo)

/-- Bit `k` of a number. -/
def bit (v k : Nat) : Bool := v.testBit k

/-- A flag as 0 or 1. -/
def b2n (b : Bool) : Nat := if b then 1 else 0

/-- A word from a number. -/
def w32 (n : Nat) : Word := BitVec.ofNat 32 n

/-- The low and the high word of a 64-bit number. -/
def lo32 (n : Nat) : Word := w32 n
def hi32 (n : Nat) : Word := w32 (n / 2 ^ 32)

/-- A number of `n` bits read as two's complement. -/
def signed (n v : Nat) : Int := if v % 2 ^ n < 2 ^ (n - 1) then (v % 2 ^ n : Nat) else (v % 2 ^ n : Nat) - (2 ^ n : Nat)

/-- Counting up, saturating at `2^n − 1`. -/
def satAdd (n a b : Nat) : Nat := min (a + b) (2 ^ n - 1)

/-- A list cut into pieces of `n` (fuel bounds the number of pieces). -/
def chunksOf {α : Type} : Nat → Nat → List α → List (List α)
  | 0, _, _ => []
  | _ + 1, _, [] => []
  | f + 1, n, l => l.take n :: chunksOf f n (l.drop n)

/-- All of a list in pieces of `n`. -/
def piecesOf {α : Type} (n : Nat) (l : List α) : List (List α) := chunksOf l.length n l

/-- A byte string padded with zero bytes to a whole number of `n` bytes. -/
def padTo (n : Nat) (b : Bytes) : Bytes := b ++ List.replicate ((n - b.length % n) % n) 0

/-- The bytewise XOR of two byte strings of one length. -/
def xorBytes (a b : Bytes) : Bytes := List.zipWith (· ^^^ ·) a b

/-- The bits of a byte, bit 0 first. -/
def byteBits (b : Byte) : List Bool := (List.range 8).map (fun k => b.getLsbD k)

/-- Bits packed into bytes, bit 0 of byte 0 first. -/
def packBits (l : List Bool) : Bytes :=
  (piecesOf 8 l).map (fun p => BitVec.ofNat 8 ((p.zipIdx.map (fun x => if x.1 then 2 ^ x.2 else 0)).sum))

/-- Fields of `n` bits packed low first into bytes (R207). -/
def packFields (n : Nat) (l : List Nat) : Bytes :=
  packBits (l.flatMap (fun v => (List.range n).map (fun k => v.testBit k)))

/-- Field `k` of `n` bits of a packed string (R207). -/
def unpackField (n k : Nat) (b : Bytes) : Nat :=
  let lo := n * k
  field (lo / 8) 5 b / 2 ^ (lo % 8) % 2 ^ n

/-- Ceiling division. -/
def cdiv (a b : Nat) : Nat := (a + b - 1) / b

/-- Positions of the set bits of a number below `n`, ascending. -/
def bitsSet (n v : Nat) : List Nat := (List.range n).filter (fun k => v.testBit k)

/-- The list with position `k` replaced. -/
def setAt {α : Type} (k : Nat) (v : α) : List α → List α
  | [] => []
  | x :: t => match k with
    | 0 => v :: t
    | k' + 1 => x :: setAt k' v t

/-- The last `n` of a list. -/
def lastN {α : Type} (n : Nat) (l : List α) : List α := l.drop (l.length - n)

/-- Insertion that keeps a list of numbers strictly rising. -/
def insertNat (k : Nat) : List Nat → List Nat
  | [] => [k]
  | x :: t => if k < x then k :: x :: t else if k = x then x :: t else x :: insertNat k t

/-- A list sorted by a number, stable. -/
def insertBy {α : Type} (key : α → Nat) (a : α) : List α → List α
  | [] => [a]
  | x :: t => if key a < key x then a :: x :: t else x :: insertBy key a t
def sortBy {α : Type} (key : α → Nat) (l : List α) : List α := l.foldl (fun acc a => insertBy key a acc) []


end Sys2Proof.Machine
end

