-- ==== Sys2Proof/Machine/Gf.lean ====
section
/-! DEFINITION. GF(2^8) with polynomial 0x11D (R74), the code coefficients (R76), CRC-64/ECMA-182 (R234). -/

namespace Sys2Proof.Machine

/-- Multiplication by 0x02 (R74). -/
def gfXtime (a : Byte) : Byte := if a.msb then (a <<< 1) ^^^ 0x1D#8 else a <<< 1

/-- The field product, bit by bit of the second operand from bit `n` − 1 down (R74). -/
def gfMulAux (a b : Byte) : Nat → Byte → Byte
  | 0, acc => acc
  | n + 1, acc => gfMulAux a b n (gfXtime acc ^^^ (if b.getLsbD n then a else 0))

/-- Multiplication in GF(2^8) (R74). -/
def gfMul (a b : Byte) : Byte := gfMulAux a b 8 0

/-- The square. -/
def gfSq (a : Byte) : Byte := gfMul a a

/-- The inverse, a^254 = a^2 · a^4 · … · a^128 (R74). Zero is never inverted. -/
def gfInv (a : Byte) : Byte :=
  let a2 := gfSq a; let a4 := gfSq a2; let a8 := gfSq a4; let a16 := gfSq a8
  let a32 := gfSq a16; let a64 := gfSq a32; let a128 := gfSq a64
  gfMul a2 (gfMul a4 (gfMul a8 (gfMul a16 (gfMul a32 (gfMul a64 a128)))))

/-- The quotient by a non-zero element. -/
def gfDiv (a b : Byte) : Byte := gfMul a (gfInv b)

/-- The point of data member `i`, and of parity row `j` (R76). -/
def pointX (i : Nat) : Byte := BitVec.ofNat 8 i
def pointY (j : Nat) : Byte := BitVec.ofNat 8 (0xFF - j)

/-- c(j,i): the coefficient of data member `i` in global parity `j` (R76). -/
def coef (j i : Nat) : Byte := gfMul (pointX i ^^^ pointY 0) (gfInv (pointX i ^^^ pointY j))

/-- A byte string times a coefficient (R75). -/
def gfScale (c : Byte) (b : Bytes) : Bytes := if c = 1 then b else b.map (gfMul c)

/-- The CRC-64/ECMA-182 polynomial (R234). -/
def crcPoly : BitVec 64 := 0x42F0E1EBA9EA3693#64

/-- One bit of the CRC register (R234). -/
def crcBit (c : BitVec 64) : BitVec 64 := if c.msb then (c <<< 1) ^^^ crcPoly else c <<< 1

/-- One byte, most significant bit first (R234). -/
def crcByte (c : BitVec 64) (b : Byte) : BitVec 64 :=
  crcBit (crcBit (crcBit (crcBit (crcBit (crcBit (crcBit (crcBit (c ^^^ ((b.setWidth 64) <<< 56)))))))))

/-- The digest of bytes in ascending address (R234). -/
def crc64 (b : Bytes) : BitVec 64 := b.foldl crcByte 0

end Sys2Proof.Machine
end

