-- ==== Sys2Proof/Machine/Code.lean ====
section
/-! DEFINITION. The stripe code: colonies, parities, loss patterns and decode plans (R77 to R83). Positions of a stripe
are numbered as R65 numbers them: data members 0 to K − 1, then local parities, then global parities 1 to R. -/

namespace Sys2Proof.Machine

/-- The geometry of a stripe: K data members, colony size G, R global parities (R66). -/
structure Geom where
  k : Nat
  g : Nat
  r : Nat
  deriving DecidableEq, Repr

/-- The number of colonies (R77). -/
def Geom.colonies (q : Geom) : Nat := cdiv q.k q.g

/-- The colony of a data member, and the members of a colony (R77). -/
def Geom.colonyOf (q : Geom) (i : Nat) : Nat := i / q.g
def Geom.members (q : Geom) (c : Nat) : List Nat := (List.range (min q.k ((c + 1) * q.g))).drop (c * q.g)

/-- A position of a stripe. -/
inductive Pos where
  | data (i : Nat)
  | local_ (c : Nat)
  | global (j : Nat)
  deriving DecidableEq, Repr

/-- The coefficient of data member `i` in a parity: 1 in its local parity, c(j,i) in global parity j (R76). -/
def parityCoef (q : Geom) (p : Pos) (i : Nat) : Byte :=
  match p with
  | .data _ => 0
  | .local_ c => if q.colonyOf i = c then 1 else 0
  | .global j => if i < q.k then coef j i else 0

/-- A parity chunk of a row from its data chunks (R77). -/
def encodeParity (q : Geom) (p : Pos) (data : Nat → Bytes) (len : Nat) : Bytes :=
  (List.range q.k).foldl (fun acc i =>
    let c := parityCoef q p i
    if c = 0 then acc else xorBytes acc (gfScale c (data i))) (List.replicate len 0)

/-- A row of the elimination: its parity and its entries over the unknowns. -/
abbrev ElimRow := Pos × List Byte

/-- A decode plan (R82): members repaired in their colony, unknowns, pivot rows, and the inverse over the unknowns. -/
structure Plan where
  localFix : List Nat
  unknowns : List Nat
  pivots   : List Pos
  inverse  : List (List Byte)
  deriving DecidableEq, Repr

/-- Lost data members of a colony (R81, f_c). -/
def lostIn (q : Geom) (lost : List Pos) (c : Nat) : List Nat := (q.members c).filter (fun i => lost.contains (.data i))

/-- Members repaired locally (R81): the one lost member of a colony with its local parity. -/
def localFixes (q : Geom) (lost : List Pos) : List Nat :=
  (List.range q.colonies).flatMap (fun c =>
    let f := lostIn q lost c
    if f.length = 1 ∧ ¬ lost.contains (.local_ c) then f else [])

/-- The unknowns, ascending (R82). -/
def unknownsOf (q : Geom) (lost : List Pos) : List Nat :=
  (List.range q.k).filter (fun i => lost.contains (.data i) && !(localFixes q lost).contains i)

/-- The candidate rows in row order (R82). -/
def candidateRows (q : Geom) (lost : List Pos) : List Pos :=
  ((List.range q.colonies).filter (fun c =>
      (unknownsOf q lost).any (fun i => q.colonyOf i = c) && !lost.contains (.local_ c))).map Pos.local_ ++
    (((List.range q.r).map (· + 1)).filter (fun j => !lost.contains (.global j))).map Pos.global

/-- Every other row not yet a pivot has the pivot's multiple added (R82). -/
def elimWith (p : List Byte) (u : Nat) (rows : List ElimRow) : List ElimRow :=
  let pu := p.getD u 0
  rows.map (fun (x : ElimRow) =>
    let f := gfDiv (x.2.getD u 0) pu
    (x.1, List.zipWith (fun a b => a ^^^ gfMul f b) x.2 p))

/-- The first row with a non-zero entry in column `u`, and the others. -/
def takePivot (u : Nat) : List ElimRow → Option (ElimRow × List ElimRow)
  | [] => none
  | x :: t =>
    if x.2.getD u 0 ≠ 0 then some (x, t)
    else (takePivot u t).map (fun y => (y.1, x :: y.2))

/-- The pivots, one a column (R82); none is BEYOND_TOLERANCE. -/
def findPivots (rows : List ElimRow) : List Nat → Option (List Pos)
  | [] => some []
  | u :: t =>
    match takePivot u rows with
    | none => none
    | some (p, rest) => (findPivots (elimWith p.2 u rest) t).map (p.1 :: ·)

/-- Gauss-Jordan on a square matrix with its right side appended; `n` columns from `u` on. -/
def gaussJordan : Nat → Nat → List (List Byte) → List (List Byte)
  | 0, _, m => m
  | n + 1, u, m =>
    match (m.drop u).findIdx? (fun r => r.getD u 0 ≠ 0) with
    | none => m
    | some d =>
      let p := m.getD (u + d) []
      let p1 := p.map (gfMul (gfInv (p.getD u 0)))
      let swapped := setAt u p1 (setAt (u + d) (m.getD u []) m)
      gaussJordan n (u + 1) (swapped.mapIdx (fun i r =>
        if i = u then r else List.zipWith (fun a b => a ^^^ gfMul (r.getD u 0) b) r p1))

/-- The inverse of a square matrix over GF(2^8). -/
def gfInverse (m : List (List Byte)) : List (List Byte) :=
  let n := m.length
  (gaussJordan n 0 (m.mapIdx (fun i r => r ++ (List.range n).map (fun j => if i = j then 1 else 0)))).map (·.drop n)

/-- The decode plan of a loss pattern, or none beyond tolerance (R81, R82). -/
def decodePlan (q : Geom) (lost : List Pos) : Option Plan :=
  let unk := unknownsOf q lost
  let row (p : Pos) : List Byte := unk.map (parityCoef q p)
  match findPivots ((candidateRows q lost).map (fun p => (p, row p))) (List.range unk.length) with
  | none => none
  | some piv => some
      { localFix := localFixes q lost, unknowns := unk, pivots := piv, inverse := gfInverse (piv.map row) }

/-- The fragments a plan reads (R83). -/
def planReads (q : Geom) (lost : List Pos) (p : Plan) : List Pos :=
  let loc := p.localFix.flatMap (fun i =>
    ((q.members (q.colonyOf i)).filter (· ≠ i)).map Pos.data ++ [Pos.local_ (q.colonyOf i)])
  let all := if p.unknowns.isEmpty then [] else
    ((List.range q.k).filter (fun i => !lost.contains (.data i))).map Pos.data ++ p.pivots
  (loc ++ all).eraseDups

/-- Local repair: the local parity less the other members of its colony (R83). -/
def repairLocal (q : Geom) (frag : Pos → Bytes) (i : Nat) : Bytes :=
  ((q.members (q.colonyOf i)).filter (· ≠ i)).foldl (fun acc m => xorBytes acc (frag (.data m)))
    (frag (.local_ (q.colonyOf i)))

/-- The residual of a pivot row: its parity chunk less every known data chunk. `dataAt p m` is member m's chunk at the
version that pivot p records (R83, R416). -/
def residual (q : Geom) (unk : List Nat) (dataAt : Pos → Nat → Bytes) (parity : Pos → Bytes) (p : Pos) : Bytes :=
  ((List.range q.k).filter (fun i => !unk.contains i)).foldl (fun acc i =>
    let c := parityCoef q p i
    if c = 0 then acc else xorBytes acc (gfScale c (dataAt p i))) (parity p)

/-- The unknowns from the residuals (R83, R202). -/
def solveUnknowns (p : Plan) (res : List Bytes) (len : Nat) : List (Nat × Bytes) :=
  (p.unknowns.zip p.inverse).map (fun (x : Nat × List Byte) =>
    (x.1, (x.2.zip res).foldl (fun acc (y : Byte × Bytes) => xorBytes acc (gfScale y.1 y.2)) (List.replicate len 0)))

/-- The excess X of R81 and the class tests that need no rank. -/
def patternExcess (q : Geom) (lost : List Pos) : Nat :=
  let unk := unknownsOf q lost
  ((List.range q.colonies).map (fun c =>
    let f := (unk.filter (fun i => q.colonyOf i = c)).length
    if f = 0 then 0 else if lost.contains (.local_ c) then f else f - 1)).sum

/-- R81 row F: never decodes. -/
def neverDecodes (q : Geom) (lost : List Pos) : Bool :=
  let e := ((List.range q.r).filter (fun j => lost.contains (.global (j + 1)))).length
  !(unknownsOf q lost).isEmpty && decide (patternExcess q lost > q.r - e)

end Sys2Proof.Machine
end

