-- ==== Sys2Proof/Machine/ImageTypes.lean ====
section
/-! DEFINITION. The coding map image as data: the records of R64 to R66. -/

namespace Sys2Proof.Machine

/-- CLASSES record (R65, R54). `kind` 0 ELEMENT, 1 BLOCK; `prot` 0 EXACT, 1 SHADOW, 2 NONE; `role` 0 MASTER. -/
structure ClassRec where
  id     : Nat
  kind   : Nat
  format : Nat
  prot   : Nat
  role   : Nat
  deriving DecidableEq, Repr, Inhabited

/-- LAYERS record (R65). -/
structure LayerRec where
  id         : Nat
  program    : Nat
  tformat    : Nat
  firstParam : Nat
  paramCount : Nat
  paramBlock : Nat
  deriving DecidableEq, Repr, Inhabited

/-- HOMES record (R65). `level` 0 PARITY, 1 FULL. -/
structure HomeRec where
  home  : Home
  level : Nat
  hops  : Nat
  deriving DecidableEq, Repr

/-- A fragment entry of a stripe: HOME_ID and ROLE (R66). -/
structure FragEntry where
  homeId : Nat
  role   : Nat
  deriving DecidableEq, Repr

/-- STRIPES record (R66). -/
structure StripeRec where
  id      : Nat
  geom    : Geom
  rows    : Nat
  entries : List FragEntry
  deriving DecidableEq, Repr

/-- RUNS record (R65). `transition` 0 NONE, 1 ARRIVING, 2 DEPARTING, 3 DUAL. -/
structure RunRec where
  firstRange : Nat
  count      : Nat
  cls        : Nat
  transition : Nat
  homeId     : Nat
  stripe     : Nat
  position   : Nat
  firstRow   : Nat
  slotBase   : Nat
  deriving DecidableEq, Repr

/-- EXTENTS record (R65). `kind` 0 DATA, 1 LOCAL_PARITY, 2 GLOBAL_PARITY, 3 SHADOW. -/
structure ExtentRec where
  inst     : Nat
  kind     : Nat
  position : Nat
  stripe   : Nat
  firstRow : Nat
  rowCount : Nat
  slotBase : Nat
  deriving DecidableEq, Repr

/-- BLOCKS record (R65). -/
structure BlockRec where
  layer  : Nat
  cls    : Nat
  chunks : Nat
  first  : Nat
  deriving DecidableEq, Repr

/-- WINDOWS record (R65). -/
structure WindowRec where
  homeId   : Nat
  ops      : Nat
  stripe   : Nat
  firstRow : Nat
  rowCount : Nat
  deriving DecidableEq, Repr

/-- The header fields of an image (R64). -/
structure MapHead where
  contract : Nat
  version  : Nat
  bytes    : Nat
  ctx      : Nat
  flags    : Nat
  classCount : Nat
  depth    : Nat
  clip     : Nat
  passes   : Nat
  baseStep : Nat
  seed     : Bytes
  crc      : BitVec 64
  deriving DecidableEq, Repr

/-- An image: header and sections (R64). -/
structure MapImage where
  head    : MapHead
  classes : List ClassRec
  layers  : List LayerRec
  homes   : List HomeRec
  stripes : List StripeRec
  runs    : List RunRec
  extents : List ExtentRec
  blocks  : List BlockRec
  windows : List WindowRec
  deriving DecidableEq, Repr

/-- Header flags (R64). -/
def MapImage.detStrict (m : MapImage) : Bool := m.head.flags.testBit 0
def MapImage.release (m : MapImage) : Bool := m.head.flags.testBit 1
def MapImage.wide (m : MapImage) : Bool := m.head.flags.testBit 2

end Sys2Proof.Machine
end

