-- ==== Sys2Proof/Machine/Rs.lean ====
section
/-! DEFINITION. The line code of the stack: check bytes, syndromes and verdicts (R238, R239). -/

namespace Sys2Proof.Machine

/-- One step of the division by g(x) (R238): the remainder k_0 k_1 k_2 k_3 after one more data byte. -/
def rsStep (k : List Byte) (d : Byte) : List Byte :=
  let f := d ^^^ k.getD 0 0
  [k.getD 1 0 ^^^ gfMul f 0x0F, k.getD 2 0 ^^^ gfMul f 0x36, k.getD 3 0 ^^^ gfMul f 0x78, gfMul f 0x40]

/-- The four check bytes of 64 data bytes (R238). -/
def rsCheck (data : Bytes) : Bytes := data.foldl rsStep [0, 0, 0, 0]

/-- The syndrome c(b) of 68 bytes, highest power first (R239). -/
def rsSyndrome (b : Byte) (code : Bytes) : Byte := code.foldl (fun acc d => gfMul acc b ^^^ d) 0

/-- The four syndromes (R239). -/
def rsSyndromes (code : Bytes) : List Byte := [1, 2, 4, 8].map (fun b => rsSyndrome b code)

/-- b^n in the field. -/
def gfPow (b : Byte) : Nat → Byte
  | 0 => 1
  | n + 1 => gfMul b (gfPow b n)

/-- The verdicts of R239; `corrected` carries the position among the 68 bytes and the error value. -/
inductive Verdict where
  | clean
  | corrected (pos : Nat) (value : Byte)
  | uncorrectable
  deriving DecidableEq, Repr

/-- The verdict on 68 bytes as read (R239): one error value `e` at byte `p` has syndromes e·(2^i)^(67−p). -/
def rsVerdict (code : Bytes) : Verdict :=
  let s := rsSyndromes code
  if s = [0, 0, 0, 0] then .clean
  else
    let e := s.getD 0 0
    match (List.range 68).find? (fun p => decide (e ≠ 0) && decide (s = [1, 2, 4, 8].map (fun b => gfMul e (gfPow b (67 - p))))) with
    | some p => .corrected p e
    | none => .uncorrectable

/-- The byte positions of a two-byte error with the given syndromes, if the syndromes allow it (R240). -/
def rsTwo (code : Bytes) : Option (Nat × Nat) :=
  let s := rsSyndromes code
  (List.range 68).findSome? (fun p => (List.range p).findSome? (fun q =>
    let x := gfPow 2 (67 - p); let y := gfPow 2 (67 - q)
    let e1 := gfDiv (s.getD 1 0 ^^^ gfMul (s.getD 0 0) y) (x ^^^ y)
    let e2 := s.getD 0 0 ^^^ e1
    let ok (i : Nat) : Bool := s.getD i 0 == (gfMul e1 (gfPow x i) ^^^ gfMul e2 (gfPow y i))
    if ok 2 && ok 3 then some (q, p) else none))

end Sys2Proof.Machine
end

