-- ==== Sys2Proof/Machine/Mem.lean ====
section
/-! DEFINITION. Byte memory as a list of cells in one canonical form: addresses strictly rising and no zero byte listed;
an unlisted byte reads as zero (R61; log entry 4). -/

namespace Sys2Proof.Machine

/-- A memory. -/
abbrev Memory := List Host.Cell

/-- The canonical form from an address on. -/
def Memory.wfFrom : Nat → Memory → Bool
  | _, [] => true
  | lo, (a, v) :: t => decide (lo ≤ a) && decide (v ≠ 0) && Memory.wfFrom (a + 1) t

/-- The canonical form: addresses strictly rising, no entry equal to what an unlisted address reads as. -/
def Memory.wf (m : Memory) : Bool := Memory.wfFrom 0 m

/-- One byte. -/
def Memory.read (a : Nat) : Memory → Byte
  | [] => 0
  | (a', v) :: t => if a' = a then v else Memory.read a t

/-- The cells of a byte string at an address, zero bytes left out. -/
def cellsAt : Nat → Bytes → Memory
  | _, [] => []
  | a, b :: t => if b = 0 then cellsAt (a + 1) t else (a, b) :: cellsAt (a + 1) t

/-- The cells below an address. -/
def Memory.below (a : Nat) : Memory → Memory
  | [] => []
  | (k, v) :: t => if k < a then (k, v) :: Memory.below a t else []

/-- The cells from an address on. -/
def Memory.from_ (a : Nat) : Memory → Memory
  | [] => []
  | (k, v) :: t => if k < a then Memory.from_ a t else (k, v) :: t

/-- A byte string stored at an address; everything else unchanged. -/
def Memory.write (a : Nat) (b : Bytes) (m : Memory) : Memory :=
  Memory.below a m ++ cellsAt a b ++ Memory.from_ (a + b.length) m

/-- `n` bytes from an address set to zero. -/
def Memory.erase (a n : Nat) (m : Memory) : Memory := Memory.below a m ++ Memory.from_ (a + n) m

/-- `n` bytes of a list of cells that starts at or above `a`. -/
def cellsRead : Nat → Nat → Memory → Bytes
  | 0, _, _ => []
  | n + 1, a, [] => 0 :: cellsRead n (a + 1) []
  | n + 1, a, (k, v) :: t => if k = a then v :: cellsRead n (a + 1) t else 0 :: cellsRead n (a + 1) ((k, v) :: t)

/-- `n` bytes from an address. -/
def Memory.readN (a n : Nat) (m : Memory) : Bytes := cellsRead n a (Memory.from_ a m)

/-- The listed addresses within `n` bytes of an address. -/
def Memory.keysIn (a n : Nat) : Memory → List Nat
  | [] => []
  | (k, _) :: t => if a ≤ k ∧ k < a + n then k :: Memory.keysIn a n t else Memory.keysIn a n t

/-- A bit set: an insertion into a strictly rising list. -/
def setBit (k : Nat) (l : List Nat) : List Nat := insertNat k l

/-- All bits of a half-open interval cleared. -/
def clearBits (lo n : Nat) (l : List Nat) : List Nat := l.filter (fun k => !(decide (lo ≤ k) && decide (k < lo + n)))

end Sys2Proof.Machine
end

