-- ==== Sys2Proof/Machine/Fp.lean ====
section
/-! DEFINITION. Exact dyadic numbers and binary32 arithmetic: round to nearest even, subnormals taken as zero, tiny results
flushed after rounding (R178, R411), NaN always 0x7FC0_0000; and the narrow formats of R205. -/

namespace Sys2Proof.Machine

/-- A value of a number format: NaN, an infinity, or (−1)^neg · mag · 2^exp exactly (R206). -/
inductive Val where
  | nan
  | inf (neg : Bool)
  | fin (neg : Bool) (mag : Nat) (exp : Int)
  deriving DecidableEq, Repr

/-- The quiet NaN every NaN becomes (R178). -/
def qNan : Word := 0x7FC00000#32

/-- Sign bit of a binary32 word. -/
def signBit32 (neg : Bool) : Nat := if neg then 2 ^ 31 else 0

/-- A floating-point code split by its fraction bits `f`, exponent bits `e` and bias (R205, R206); `specials` says what
the top exponent holds: 0 nothing, 1 infinity and NaN, 2 the E4M3 rule; `flush` says a subnormal is read as zero. -/
def decodeFloat (f e bias specials : Nat) (flush : Bool) (v : Nat) : Val :=
  let neg := v.testBit (f + e)
  let ex := bits v (f + e - 1) f
  let fr := v % 2 ^ f
  let top := 2 ^ e - 1
  if specials = 1 ∧ ex = top then (if fr = 0 then .inf neg else .nan)
  else if specials = 2 ∧ ex = top ∧ fr = 2 ^ f - 1 then .nan
  else if ex = 0 then (if flush then .fin neg 0 0 else .fin neg fr (1 - (bias : Int) - f))
  else .fin neg (2 ^ f + fr) ((ex : Int) - bias - f)

/-- binary32, subnormals read as zero of their sign (R205). -/
def f32Val (w : Word) : Val := decodeFloat 23 8 127 1 true w.toNat
/-- bfloat16 (R205). -/
def bf16Val (n : Nat) : Val := decodeFloat 7 8 127 1 true n
/-- E4M3 (R205). -/
def e4m3Val (n : Nat) : Val := decodeFloat 3 4 7 2 false n
/-- E5M2 (R205). -/
def e5m2Val (n : Nat) : Val := decodeFloat 2 5 15 1 false n
/-- E3M2, E2M3 and E2M1: no specials (R205). -/
def e3m2Val (n : Nat) : Val := decodeFloat 2 3 3 0 false n
def e2m3Val (n : Nat) : Val := decodeFloat 3 2 1 0 false n
def e2m1Val (n : Nat) : Val := decodeFloat 1 2 1 0 false n

/-- A magnitude rounded to nearest even at `p` bits with an unbounded exponent: (m, e) with 2^(p−1) ≤ m < 2^p, from a
non-zero magnitude. `sticky` says the exact value lies strictly above `mag` within its last place. -/
def roundMag (p : Nat) (mag : Nat) (exp : Int) (sticky : Bool) : Nat × Int :=
  let n := mag.log2 + 1
  if n ≤ p then (mag * 2 ^ (p - n), exp - ((p - n : Nat) : Int))
  else
    let sh := n - p
    let q := mag / 2 ^ sh
    let r := mag % 2 ^ sh
    let half := 2 ^ (sh - 1)
    let up := decide (r > half) || (decide (r = half) && (sticky || q % 2 == 1))
    let q' := if up then q + 1 else q
    if q' = 2 ^ p then (2 ^ (p - 1), exp + sh + 1) else (q', exp + sh)

/-- The floating-point code of a rounded value with `p` significant bits and 8 exponent bits: tiny is a zero of its sign
(R411), beyond the largest finite an infinity. -/
def packFloat (p : Nat) (neg : Bool) (m : Nat) (e : Int) : Nat :=
  let s := if neg then 2 ^ (p + 7) else 0
  let ex := e + ((p - 1 : Nat) : Int)
  if ex < -126 then s
  else if ex > 127 then s + 255 * 2 ^ (p - 1)
  else s + (ex + 127).toNat * 2 ^ (p - 1) + (m - 2 ^ (p - 1))

/-- Rounding of an exact value to `p` significant bits (24 for binary32, 8 for bfloat16; R411). -/
def roundFloat (p : Nat) (neg : Bool) (mag : Nat) (exp : Int) (sticky : Bool) : Nat :=
  if mag = 0 then (if neg then 2 ^ (p + 7) else 0)
  else
    let r := roundMag p mag exp sticky
    packFloat p neg r.1 r.2

/-- Rounding of any value to binary32. -/
def toF32 : Val → Word
  | .nan => qNan
  | .inf neg => w32 (signBit32 neg + 0x7F800000)
  | .fin neg mag exp => w32 (roundFloat 24 neg mag exp false)

/-- The exact sum; a zero sum is −0 only when both are negative zeros (IEEE 754, round to nearest). -/
def Val.add : Val → Val → Val
  | .nan, _ => .nan
  | _, .nan => .nan
  | .inf a, .inf b => if a = b then .inf a else .nan
  | .inf a, _ => .inf a
  | _, .inf b => .inf b
  | .fin n1 m1 e1, .fin n2 m2 e2 =>
    if m1 = 0 ∧ m2 = 0 then .fin (n1 && n2) 0 0
    else if m1 = 0 then .fin n2 m2 e2
    else if m2 = 0 then .fin n1 m1 e1
    else
      let e := min e1 e2
      let a : Int := (if n1 then -1 else 1) * ((m1 * 2 ^ (e1 - e).toNat : Nat) : Int)
      let b : Int := (if n2 then -1 else 1) * ((m2 * 2 ^ (e2 - e).toNat : Nat) : Int)
      let s := a + b
      .fin (decide (s < 0)) s.natAbs e

/-- The negation. -/
def Val.neg : Val → Val
  | .nan => .nan
  | .inf a => .inf (!a)
  | .fin n m e => .fin (!n) m e

/-- The exact product. -/
def Val.mul : Val → Val → Val
  | .nan, _ => .nan
  | _, .nan => .nan
  | .inf a, .inf b => .inf (a != b)
  | .inf a, .fin n m _ => if m = 0 then .nan else .inf (a != n)
  | .fin n m _, .inf b => if m = 0 then .nan else .inf (n != b)
  | .fin n1 m1 e1, .fin n2 m2 e2 => .fin (n1 != n2) (m1 * m2) (e1 + e2)

/-- Whether a value is a zero. -/
def Val.isZero : Val → Bool
  | .fin _ m _ => m == 0
  | _ => false

/-- The order of two values: none if either is NaN. -/
def Val.cmp (a b : Val) : Option Ordering :=
  match a, b with
  | .nan, _ => none
  | _, .nan => none
  | a, b =>
    match Val.add a b.neg with
    | .nan => some .eq
    | .inf n => some (if n then .lt else .gt)
    | .fin n m _ => some (if m = 0 then .eq else if n then .lt else .gt)

/-- Addition (R178). -/
def fAdd (a b : Word) : Word := toF32 ((f32Val a).add (f32Val b))
/-- Subtraction (R178). -/
def fSub (a b : Word) : Word := toF32 ((f32Val a).add (f32Val b).neg)
/-- Multiplication (R178). -/
def fMul (a b : Word) : Word := toF32 ((f32Val a).mul (f32Val b))
/-- a × b + c, one rounding (R177). -/
def fFma (a b c : Word) : Word := toF32 (((f32Val a).mul (f32Val b)).add (f32Val c))
/-- c − a × b, one rounding (R177). -/
def fNma (a b c : Word) : Word := toF32 ((((f32Val a).mul (f32Val b)).neg).add (f32Val c))

/-- Division, correctly rounded; x/0 is an infinity for x ≠ 0, 0/0 is NaN (R178). -/
def fDiv (a b : Word) : Word :=
  match f32Val a, f32Val b with
  | .nan, _ => qNan
  | _, .nan => qNan
  | .inf _, .inf _ => qNan
  | .inf n, .fin n2 _ _ => toF32 (.inf (n != n2))
  | .fin n _ _, .inf n2 => w32 (signBit32 (n != n2))
  | .fin n1 m1 e1, .fin n2 m2 e2 =>
    if m2 = 0 then (if m1 = 0 then qNan else toF32 (.inf (n1 != n2)))
    else if m1 = 0 then w32 (signBit32 (n1 != n2))
    else
      let q := m1 * 2 ^ 64 / m2
      w32 (roundFloat 24 (n1 != n2) q (e1 - e2 - 64) (decide (m1 * 2 ^ 64 % m2 ≠ 0)))

/-- The integer square root of `v` below 2^(2n), by bits from n − 1 down. -/
def isqrtAux (v : Nat) : Nat → Nat → Nat
  | 0, acc => acc
  | n + 1, acc => let t := acc + 2 ^ n; isqrtAux v n (if t * t ≤ v then t else acc)

/-- The square root, correctly rounded; of a negative number NaN (R178); of a zero the zero. -/
def fSqrt (a : Word) : Word :=
  match f32Val a with
  | .nan => qNan
  | .inf n => if n then qNan else toF32 (.inf false)
  | .fin n m e =>
    if m = 0 then w32 (signBit32 n)
    else if n then qNan
    else
      let odd := decide (e % 2 ≠ 0)
      let m' := (if odd then m * 2 else m) * 2 ^ 40
      let e' := (if odd then e - 1 else e) - 40
      let r := isqrtAux m' 33 0
      w32 (roundFloat 24 false r (e' / 2) (decide (r * r ≠ m')))

/-- A value with its sign cleared. -/
def fAbs (a : Word) : Word :=
  match f32Val a with
  | .nan => qNan
  | .inf _ => toF32 (.inf false)
  | .fin _ m e => toF32 (.fin false m e)

/-- The negation (R177: arithmetic, so NaN is 0x7FC0_0000 and a subnormal a zero). -/
def fNeg (a : Word) : Word := toF32 (f32Val a).neg

/-- VSIGN (R177). -/
def fSign (a : Word) : Word :=
  match f32Val a with
  | .nan => qNan
  | .inf n => w32 (signBit32 n + 0x3F800000)
  | .fin n m _ => w32 (signBit32 n + (if m = 0 then 0 else 0x3F800000))

/-- The sign a minimum or maximum orders zeros by. -/
def valNeg : Val → Bool
  | .nan => false
  | .inf n => n
  | .fin n _ _ => n

/-- Whether `a` comes before `b`, −0 below +0 (R178). -/
def valBefore (a b : Val) : Bool :=
  match Val.cmp a b with
  | some .lt => true
  | some .eq => valNeg a && !valNeg b
  | _ => false

/-- VMIN and VMAX: NaN if either is (R178). -/
def fMin (a b : Word) : Word :=
  match f32Val a, f32Val b with
  | .nan, _ => qNan
  | _, .nan => qNan
  | x, y => toF32 (if valBefore y x then y else x)
def fMax (a b : Word) : Word :=
  match f32Val a, f32Val b with
  | .nan, _ => qNan
  | _, .nan => qNan
  | x, y => toF32 (if valBefore x y then y else x)

/-- The condition codes of R177. -/
def fCond (c : Nat) (a b : Word) : Bool :=
  match Val.cmp (f32Val a) (f32Val b) with
  | none => c == 1 || c == 6
  | some o =>
    match c with
    | 0 => o == .eq
    | 1 => o != .eq
    | 2 => o == .lt
    | 3 => o != .gt
    | 4 => o == .gt
    | 5 => o != .lt
    | 6 => false
    | _ => true

/-- Whether a binary32 word is a NaN, or an infinity. -/
def isNan (a : Word) : Bool := f32Val a == .nan
def isInf (a : Word) : Bool := match f32Val a with | .inf _ => true | _ => false

/-- The condition "not finite". -/
def nonFinite (a : Word) : Bool := isNan a || isInf a

/-- A narrow element format as an encoder sees it: fraction bits (or none for an integer), the exponent of the subnormal
quantum, the code of the largest finite magnitude, and the width in bits (R205, R219). -/
structure Elem where
  frac    : Option Nat
  quantum : Int
  maxCode : Nat
  width   : Nat
  deriving DecidableEq, Repr

/-- The element formats of R218's codes. -/
def elemOf : Nat → Option Elem
  | 1 => some ⟨some 3, -9, 0x7E, 8⟩
  | 2 => some ⟨some 2, -16, 0x7B, 8⟩
  | 3 => some ⟨some 2, -4, 0x1F, 6⟩
  | 4 => some ⟨some 3, -3, 0x1F, 6⟩
  | 5 => some ⟨some 1, -1, 0x7, 4⟩
  | 6 => some ⟨none, 0, 127, 8⟩
  | 7 => some ⟨none, 0, 7, 4⟩
  | 8 => some ⟨none, 0, 1, 2⟩
  | _ => none

/-- The magnitude a magnitude code stands for (R205). -/
def Elem.magOf (f : Elem) (code : Nat) : Nat × Int :=
  match f.frac with
  | none => (code, 0)
  | some fr =>
    let e := code / 2 ^ fr
    if e = 0 then (code, f.quantum) else (2 ^ fr + code % 2 ^ fr, f.quantum + e - 1)

/-- The comparison of two non-negative dyadics: whether m1·2^e1 ≤ m2·2^e2. -/
def dyLe (m1 : Nat) (e1 : Int) (m2 : Nat) (e2 : Int) : Bool :=
  let e := min e1 e2
  decide (m1 * 2 ^ (e1 - e).toNat ≤ m2 * 2 ^ (e2 - e).toNat)

/-- The magnitude code at or below |y| = m·2^e, and the fraction (numerator, denominator) of the step to the next code.
It assumes |y| at most the largest finite magnitude. -/
def Elem.floorCode (f : Elem) (m : Nat) (e : Int) : Nat × Nat × Nat :=
  if m = 0 then (0, 0, 1)
  else
    let fr := f.frac.getD 0
    let top : Int := (m.log2 : Int) + e
    let q : Int := match f.frac with
      | none => 0
      | some n => max f.quantum (top - n)
    let num := if e ≥ q then m * 2 ^ (e - q).toNat else m
    let den := if e ≥ q then 1 else 2 ^ (q - e).toNat
    (((q - f.quantum).toNat) * (if f.frac.isNone then 0 else 2 ^ fr) + num / den, num % den, den)

/-- A magnitude rounded to nearest, ties to the even code (R224, ROUND 0). -/
def Elem.nearest (f : Elem) (m : Nat) (e : Int) : Nat :=
  let x := f.floorCode m e
  if 2 * x.2.1 > x.2.2 then x.1 + 1
  else if 2 * x.2.1 = x.2.2 ∧ x.2.1 ≠ 0 then x.1 + x.1 % 2
  else x.1

/-- The element's bits from a magnitude code and a sign; a zero magnitude has a clear sign bit (R224). -/
def Elem.encode (f : Elem) (neg : Bool) (code : Nat) : Nat :=
  match f.frac with
  | none => if neg then (2 ^ f.width - code) % 2 ^ f.width else code
  | some _ => if neg ∧ code ≠ 0 then code + 2 ^ (f.width - 1) else code

/-- Nearest-even encoding to E4M3 or E5M2, saturating, NaN to the format's NaN code, as VST does (R180). The sign of a
value rounded to zero is kept, the conversion being a rounding (R180); unlike emission. -/
def storeNarrow (f : Elem) (nanCode : Nat) (v : Val) : Nat :=
  let put (neg : Bool) (c : Nat) : Nat := if neg then c + 2 ^ (f.width - 1) else c
  match v with
  | .nan => nanCode
  | .inf neg => put neg f.maxCode
  | .fin neg m e =>
    let mx := f.magOf f.maxCode
    put neg (if dyLe m e mx.1 mx.2 then min f.maxCode (f.nearest m e) else f.maxCode)

end Sys2Proof.Machine
end

