-- ==== Sys2Proof/Machine/Gen.lean ====
section
/-! DEFINITION. The rounding generator (R228). -/

namespace Sys2Proof.Machine

/-- One quarter round of the generator (R228). -/
def genQuarter (x : Word × Word × Word × Word) : Word × Word × Word × Word :=
  let (a, b, c, d) := x
  let a := a + b; let d := (d ^^^ a).rotateLeft 16
  let c := c + d; let b := (b ^^^ c).rotateLeft 11
  let a := a + b; let d := (d ^^^ a).rotateLeft 8
  let c := c + d; let b := (b ^^^ c).rotateLeft 5
  (a, b, c, d)

/-- The generator's value u of (seed, step, layer, chunk, lane) (R228). -/
def genMix (seed step layer chunk lane : Nat) : Word :=
  let a := w32 seed ^^^ w32 lane
  let b := w32 (seed / 2 ^ 32) ^^^ w32 chunk
  let c := w32 (seed / 2 ^ 64) ^^^ (w32 (chunk / 2 ^ 32) ||| (w32 (step / 2 ^ 32) <<< 16))
  let d := w32 (seed / 2 ^ 96) ^^^ w32 step
  let (a, b, c, d) := genQuarter (genQuarter (a, b, c, d))
  let (a, _, c, _) := genQuarter (genQuarter (a + w32 layer, b, c, d))
  a ^^^ c

end Sys2Proof.Machine
end

