-- ==== Sys2Proof/Machine/Program.lean ====
section
/-! DEFINITION. Optimizer programs: the instruction fields (R175), validation (R181, R413), the vector unit's state (R174)
and execution (R176 to R180, R191). -/

namespace Sys2Proof.Machine

/-- An instruction's fields (R175). -/
structure PInstr where
  op  : Nat
  d   : Nat
  a   : Nat
  b   : Nat
  c   : Nat
  p   : Nat
  pn  : Bool
  imm : Nat
  deriving DecidableEq, Repr

/-- The fields of a 64-bit instruction (R175). -/
def pinstrOf (w : Nat) : PInstr :=
  { op := bits w 63 56, d := bits w 55 51, a := bits w 50 46, b := bits w 45 41, c := bits w 40 36,
    p := bits w 35 33, pn := w.testBit 32, imm := w % 2 ^ 32 }

/-- A program of the image (R173). -/
structure Program where
  id        : Nat
  scalars   : Bool
  precond   : Bool
  classMask : Nat
  code      : List PInstr
  crc       : Nat
  deriving DecidableEq, Repr

/-- What an opcode reads and writes: which of D, A, B, C it uses, whether it takes P and PN, the bits of IMM it reads, the
flags it allows (R413), whether its destination is a predicate, and whether its sources are (R177). -/
structure OpShape where
  useD  : Bool
  useA  : Bool
  useB  : Bool
  useC  : Bool
  pred  : Bool
  immBits : Nat
  flagA : Bool := false
  flagB : Bool := false
  flagC : Bool := false
  predD : Bool := false
  predS : Bool := false
  deriving DecidableEq, Repr

/-- The shape of each opcode (R175, R177, R413); none is an undefined opcode. -/
def opShape : Nat → Option OpShape
  | 0x00 => some ⟨false, false, false, false, false, 0, false, false, false, false, false⟩
  | 0x01 | 0x02 | 0x03 | 0x06 | 0x08 | 0x09 | 0x10 | 0x11 | 0x12 =>
      some ⟨true, true, true, false, true, 0, true, true, false, false, false⟩
  | 0x04 | 0x05 => some ⟨true, true, true, true, true, 0, true, true, true, false, false⟩
  | 0x07 | 0x0A | 0x0B | 0x0C | 0x0F => some ⟨true, true, false, false, true, 0, true, false, false, false, false⟩
  | 0x0D => some ⟨true, true, true, true, true, 0, true, true, false, false, false⟩
  | 0x0E => some ⟨true, false, false, false, true, 32, false, false, false, false, false⟩
  | 0x13 | 0x14 => some ⟨true, true, false, false, true, 5, false, false, false, false, false⟩
  | 0x18 => some ⟨true, true, true, false, true, 3, false, false, false, true, false⟩
  | 0x19 | 0x1A => some ⟨true, true, true, false, false, 0, false, false, false, true, true⟩
  | 0x1B => some ⟨true, true, false, false, false, 0, false, false, false, true, true⟩
  | 0x20 => some ⟨true, false, false, false, true, 3, false, false, false, false, false⟩
  | 0x21 => some ⟨false, true, false, false, true, 3, false, false, false, false, false⟩
  | 0x22 => some ⟨true, false, false, false, true, 0, false, false, false, false, false⟩
  | 0x23 => some ⟨true, false, false, false, true, 8, false, false, false, false, false⟩
  | 0x30 | 0x31 | 0x32 => some ⟨true, true, false, false, true, 0, false, false, false, false, false⟩
  | 0x40 | 0x41 | 0x42 | 0x44 | 0x46 | 0x47 =>
      some ⟨true, true, true, false, false, 0, false, false, false, false, false⟩
  | 0x43 => some ⟨true, true, true, true, false, 0, false, false, false, false, false⟩
  | 0x45 => some ⟨true, true, false, false, false, 0, false, false, false, false, false⟩
  | 0x48 => some ⟨true, false, false, false, false, 32, false, false, false, false, false⟩
  | 0x49 => some ⟨true, false, false, false, false, 5, false, false, false, false, false⟩
  | 0x4A => some ⟨true, true, true, false, false, 3, false, false, false, true, false⟩
  | 0x4B => some ⟨true, true, false, false, false, 5, false, false, false, true, false⟩
  | 0x50 | 0x51 | 0x5F => some ⟨false, false, false, false, false, 0, false, false, false, false, false⟩
  | _ => none

/-- The flags AS, BS, CS of an instruction: bits 29, 31, 30 of the word (R175). -/
def PInstr.fA (i : PInstr) : Bool := i.imm.testBit 29
def PInstr.fB (i : PInstr) : Bool := i.imm.testBit 31
def PInstr.fC (i : PInstr) : Bool := i.imm.testBit 30

/-- Whether the fields of an instruction keep R175, R181 and R413. `mask` is CLASS_MASK. A predicate field names p0 to
p7, so its upper two bits are zero; a predicate destination is not p0 (DEDUCED, log entry 20). -/
def PInstr.ok (mask : Nat) (i : PInstr) : Bool :=
  match opShape i.op with
  | none => false
  | some s =>
    let immOk :=
      if s.immBits = 0 then
        decide (i.imm % 2 ^ 29 = 0) && (s.flagA || !i.fA) && (s.flagB || !i.fB) && (s.flagC || !i.fC)
      else decide (i.imm < 2 ^ s.immBits)
    (s.useD || i.d == 0) && (s.useA || i.a == 0) && (s.useB || i.b == 0) && (s.useC || i.c == 0) &&
      (s.pred || (i.p == 0 && !i.pn)) && immOk &&
      (!s.predD || (decide (i.d ≠ 0) && decide (i.d < 8))) &&
      (!s.predS || (decide (i.a < 8) && decide (i.b < 8))) &&
      (i.op != 0x0D || decide (i.c < 8)) &&
      (i.op != 0x23 || i.imm != 0) &&
      (!(i.op == 0x20 || i.op == 0x21) || mask.testBit i.imm)

/-- Whether an opcode is a vector, load-store or reduction instruction, which must stand in a strip segment (R181). -/
def opInStrip (op : Nat) : Bool := (decide (0x01 ≤ op) && decide (op ≤ 0x18)) || (decide (0x20 ≤ op) && decide (op ≤ 0x32))

/-- The shape of the code: segments alternate and do not nest, at most four, END last and only last (R181). -/
def stripsOk : List PInstr → Bool → Nat → Bool
  | [], _, _ => false
  | i :: t, inside, n =>
    if i.op = 0x5F then t.isEmpty && !inside && decide (n ≤ 4)
    else if i.op = 0x50 then !inside && stripsOk t true (n + 1)
    else if i.op = 0x51 then inside && stripsOk t false n
    else (inside || !opInStrip i.op) && stripsOk t inside n

/-- One program parsed and validated from its image bytes: the program and its length; none breaks R181 or R173. -/
def parseProgram (b : Bytes) : Option (Program × Nat) :=
  let n := field 2 2 b
  let len := 16 + 8 * n
  let code := slice 16 (8 * n) b
  let fl := field 4 1 b
  let p : Program := { id := field 0 2 b, scalars := fl.testBit 0, precond := fl.testBit 1, classMask := field 5 1 b,
                       code := (piecesOf 8 code).map (fun x => pinstrOf (leNat x)),
                       crc := field 8 8 b }
  if len ≤ b.length ∧ 1 ≤ n ∧ n ≤ 256 ∧ p.id ≠ 0 ∧ fl < 4 ∧ field 6 2 b = 0 ∧ field 8 8 b = (crc64 code).toNat ∧
      p.code.all (PInstr.ok p.classMask) ∧ stripsOk p.code false 0
  then some (p, len) else none

/-- The programs of an image, one after another. -/
def parsePrograms : Nat → Bytes → Option (List Program)
  | 0, b => if b.isEmpty then some [] else none
  | n + 1, b =>
    if b.isEmpty then some [] else
    match parseProgram b with
    | none => none
    | some (p, len) => (parsePrograms n (b.drop len)).map (p :: ·)

/-- A whole program image (R173, R181): at most 32 programs and 66,048 bytes, no PROGRAM_ID twice. -/
def parseProgImage (b : Bytes) : Option (List Program) :=
  if b.length > 66048 then none else
  match parsePrograms 32 b with
  | none => none
  | some ps => if (ps.map (·.id)).eraseDups.length = ps.length then some ps else none

/-- A class's elements of one range, as stored bit patterns (R180). -/
structure ClassBuf where
  cls   : Nat
  fmt   : Nat
  elems : List Nat
  deriving DecidableEq, Repr

/-- What a program run reads (R174, R198). -/
structure ProgEnv where
  width  : Nat
  valid  : Nat
  grad   : List Word
  params : List Word
  scal   : List Word
  seed   : Nat
  step   : Nat
  layer  : Nat
  range  : Nat
  deriving DecidableEq, Repr

/-- The machine state of a running program (R174). -/
structure Vm where
  v   : List (List Word)
  s   : List Word
  p   : List (List Bool)
  cls : List ClassBuf
  deriving DecidableEq, Repr

/-- A stored element widened into a lane (R180). -/
def vldConvert (fmt v : Nat) : Word :=
  match fmt with
  | 0x01 => toF32 (bf16Val v)
  | 0x02 => toF32 (e4m3Val v)
  | 0x03 => toF32 (e5m2Val v)
  | _ => w32 v

/-- A lane narrowed to a stored element (R180). -/
def vstConvert (fmt : Nat) (w : Word) : Nat :=
  match fmt with
  | 0x01 => match f32Val w with
    | .nan => 0x7FC0
    | .inf n => (if n then 0x8000 else 0) + 0x7F80
    | .fin n m e => roundFloat 8 n m e false
  | 0x02 => storeNarrow ⟨some 3, -9, 0x7E, 8⟩ 0x7F (f32Val w)
  | 0x03 => storeNarrow ⟨some 2, -16, 0x7B, 8⟩ 0x7F (f32Val w)
  | 0x11 => w.toNat % 2 ^ 16
  | 0x12 => w.toNat % 2 ^ 8
  | _ => w.toNat

/-- The elements of a class at a strip. -/
def stripElems (cls : List ClassBuf) (c k : Nat) : List Word :=
  match cls.find? (fun b => b.cls = c) with
  | none => List.replicate 512 0
  | some b => ((b.elems.drop (512 * k)).take 512).map (vldConvert b.fmt)

/-- Lanes merged under a mask. -/
def mergeLanes (m : List Bool) (new old : List Word) : List Word :=
  List.zipWith (fun (x : Bool × Word) o => if x.1 then x.2 else o) (m.zip new) old

/-- The fixed binary tree of R179: adjacent results paired, nine levels. -/
def treeLevel : List Word → List Word
  | [] => []
  | [x] => [x]
  | x :: y :: t => fAdd x y :: treeLevel t
def treeSum : Nat → List Word → Word
  | 0, l => l.headD 0
  | n + 1, l => treeSum n (treeLevel l)

/-- The result of an arithmetic opcode on one lane or on scalars; the scalar forms share it (R177). -/
def aluOp (op : Nat) (a b c : Word) : Word :=
  match op with
  | 0x01 | 0x40 => fAdd a b
  | 0x02 | 0x41 => fSub a b
  | 0x03 | 0x42 => fMul a b
  | 0x04 | 0x43 => fFma a b c
  | 0x05 => fNma a b c
  | 0x06 | 0x44 => fDiv a b
  | 0x07 | 0x45 => fSqrt a
  | 0x08 | 0x46 => fMin a b
  | 0x09 | 0x47 => fMax a b
  | 0x0A => fAbs a
  | 0x0B => fNeg a
  | 0x0C => fSign a
  | 0x10 => a &&& b
  | 0x11 => a ||| b
  | 0x12 => a ^^^ b
  | _ => a

/-- Execution of one instruction at strip `k` (scalar and predicate instructions ignore `k`). -/
def stepInstr (e : ProgEnv) (k : Nat) (m : Vm) (i : PInstr) : Vm :=
  let sreg (r : Nat) : Word := m.s.getD r 0
  let lanes0 : List Word := List.replicate 512 0
  let vreg (r : Nat) : List Word := m.v.getD r lanes0
  let src (flag : Bool) (r : Nat) : List Word := if flag then List.replicate 512 (sreg r) else vreg r
  let pOf (r : Nat) : List Bool :=
    if r = 0 then (List.range 512).map (fun j => decide (512 * k + j < e.valid)) else m.p.getD r (List.replicate 512 true)
  let ex := (pOf i.p).map (fun b => b != i.pn)
  let act := List.zipWith (· && ·) ex (pOf 0)
  let shape := (opShape i.op).getD ⟨false, false, false, false, false, 0, false, false, false, false, false⟩
  let fa := shape.flagA && i.fA
  let fb := shape.flagB && i.fB
  let fc := shape.flagC && i.fC
  let setV (l : List Word) : Vm := { m with v := setAt i.d (mergeLanes ex l (vreg i.d)) m.v }
  let setS (w : Word) : Vm := { m with s := setAt i.d w m.s }
  let setP (l : List Bool) : Vm := { m with p := setAt i.d l m.p }
  let masked (l : List Word) : List Word := List.zipWith (fun (b : Bool) w => if b then w else 0) act l
  match i.op with
  | 0x00 | 0x50 | 0x51 | 0x5F => m
  | 0x0D => setV (List.zipWith (fun (q : Bool) (x : Word × Word) => if q then x.1 else x.2) (pOf i.c)
      ((src fa i.a).zip (src fb i.b)))
  | 0x0E => setV (List.replicate 512 (w32 i.imm))
  | 0x13 => setV ((vreg i.a).map (fun (x : Word) => x <<< i.imm))
  | 0x14 => setV ((vreg i.a).map (fun (x : Word) => x >>> i.imm))
  | 0x18 =>
      let r := List.zipWith (fCond i.imm) (vreg i.a) (vreg i.b)
      setP (List.zipWith (fun (x : Bool × Bool) o => if x.1 then x.2 else o) (ex.zip r) (pOf i.d))
  | 0x19 => setP (List.zipWith (· && ·) (pOf i.a) (pOf i.b))
  | 0x1A => setP (List.zipWith (· || ·) (pOf i.a) (pOf i.b))
  | 0x1B => setP ((pOf i.a).map (!·))
  | 0x20 => setV (stripElems m.cls i.imm k)
  | 0x21 => { m with cls := m.cls.map (fun b =>
      if b.cls = i.imm then
        let old := (b.elems.drop (512 * k)).take 512
        let new := List.zipWith (fun (x : Bool × Word) o => if x.1 then vstConvert b.fmt x.2 else o)
          (act.zip (vreg i.a)) old
        { b with elems := b.elems.take (512 * k) ++ new ++ b.elems.drop (512 * (k + 1)) }
      else b) }
  | 0x22 => setV ((e.grad.drop (512 * k)).take 512)
  | 0x23 => setV ((List.range 512).map (fun j =>
      let u := genMix e.seed e.step e.layer e.range (i.imm * 2 ^ 16 + 512 * k + j)
      toF32 (.fin false (u.toNat / 2 ^ 8) (-24))))
  | 0x30 => setS (fAdd (sreg i.d) (treeSum 9 (masked (vreg i.a))))
  | 0x31 => setS (fAdd (sreg i.d) (treeSum 9 (masked ((vreg i.a).map (fun x => fMul x x)))))
  | 0x32 => setS (((act.zip (vreg i.a)).filterMap (fun (x : Bool × Word) => if x.1 then some (fAbs x.2) else none)).foldl fMax (sreg i.d))
  | 0x48 => setS (w32 i.imm)
  | 0x49 => setS (e.params.getD i.imm 0)
  | 0x4A => setP (List.replicate 512 (fCond i.imm (sreg i.a) (sreg i.b)))
  | 0x4B => setP (List.replicate 512 ((sreg i.a).getLsbD i.imm))
  | op =>
    if op ≥ 0x40 then setS (aluOp op (sreg i.a) (sreg i.b) (sreg i.c))
    else setV (List.zipWith (fun (x : Word × Word) c => aluOp op x.1 x.2 c)
      ((src fa i.a).zip (src fb i.b)) (src fc i.c))

/-- The instructions of the next segment and what follows it. -/
def splitStrip : List PInstr → List PInstr × List PInstr
  | [] => ([], [])
  | i :: t => if i.op = 0x51 then ([], t) else let r := splitStrip t; (i :: r.1, r.2)

/-- A strip segment over every strip, ascending; the vector registers are +0 at the start of every strip (R174). -/
def runSegment (e : ProgEnv) (code : List PInstr) (m : Vm) : Vm :=
  (List.range (e.width / 512)).foldl (fun m k =>
    code.foldl (stepInstr e k) { m with v := List.replicate 32 (List.replicate 512 0) }) m

/-- The program in order (R174); `n` bounds the number of instructions. -/
def runCode (e : ProgEnv) : Nat → List PInstr → Vm → Vm
  | 0, _, m => m
  | _ + 1, [], m => m
  | n + 1, i :: t, m =>
    if i.op = 0x50 then
      let r := splitStrip t
      runCode e n r.2 (runSegment e r.1 m)
    else runCode e n t (stepInstr e 0 m i)

/-- The state a program starts from (R174). -/
def vmStart (p : Program) (e : ProgEnv) (cls : List ClassBuf) : Vm :=
  { v := List.replicate 32 (List.replicate 512 0),
    s := (if p.scalars then slice0 e.scal else List.replicate 16 0) ++ List.replicate 16 0,
    p := List.replicate 8 (List.replicate 512 true), cls := cls }
where slice0 (l : List Word) : List Word := l.take 16 ++ List.replicate (16 - l.length) 0

/-- A range's classes after its program has run (R174, R198). -/
def runProgram (p : Program) (e : ProgEnv) (cls : List ClassBuf) : List ClassBuf :=
  (runCode e p.code.length p.code (vmStart p e cls)).cls

/-- The words of a class chunk buffer as elements, and back (R205, R207). -/
def fmtWidth : Nat → Nat
  | 0x00 => 4 | 0x10 => 4 | 0x01 => 2 | 0x11 => 2 | _ => 1
def elemsOf (fmt : Nat) (b : Bytes) : List Nat := (piecesOf (fmtWidth fmt) b).map leNat
def bytesOfElems (fmt : Nat) (l : List Nat) : Bytes := l.flatMap (natLe (fmtWidth fmt))

end Sys2Proof.Machine
end

