-- ==== Sys2Proof/Machine/InstTypes.lean ====
section
/-! DEFINITION. The state of one engine instance, unit by unit (R35), as plain data. -/

namespace Sys2Proof.Machine

/-- A chunk of a context: class, range (or block chunk) and chunk within the range (R55, R63). -/
structure ChunkId where
  ctx : Nat
  cls : Nat
  q   : Nat
  k   : Nat
  deriving DecidableEq, Repr

/-- One fragment of one row: role 0 data, 1 local parity, 2 global parity, 3 SHADOW (R259). -/
structure FragId where
  stripe : Nat
  row    : Nat
  role   : Nat
  index  : Nat
  deriving DecidableEq, Repr

/-- A chunk record (R58). -/
structure ChunkRec where
  version : Nat
  digest  : BitVec 64
  attr    : Nat
  deriving DecidableEq, Repr

/-- What the die or its instances put on their ports and lines (R35, R36, R43): the model's own trace (log entry 3). -/
inductive OutEvent where
  | fabric (hdr body : Bytes) (payload : List Bytes)
  | response (hdr body ext : Bytes) (payload : List Bytes)
  | heartbeat (hdr body : Bytes)
  | emit (record : Bytes)
  | partialNorm (record : Bytes)
  | adopt (ctx firstRange count layer : Nat)
  | drop (ctx firstRange count layer : Nat)
  | hostWrite (addr : Nat) (bytes : Bytes)
  | hostRead (addr bytes : Nat)
  | nvme (op lba blocks : Nat) (bytes : Bytes)
  | powerRequest (state : Nat)
  | offResult (code : Nat)
  | supplyStep (nominal : Bool)
  | busRead (value : Word) (poison : Bool)
  | busDone
  | busError
  | dmc (what slot : Nat)
  | uart (byte : Byte)
  | pins (levels : Nat)
  deriving DecidableEq, Repr

/-- An event or order-log ring: entries by index, and the number ever written modulo its size (R301, R307). -/
structure Ring where
  entries : Tbl Bytes
  head    : Nat
  mtail   : Nat
  htail   : Nat
  dropped : Nat
  deriving DecidableEq, Repr

/-- The rings of one section: event ring and order log, and the latched copies of its readers (R302, R307, R360). -/
structure Logs where
  ring  : Ring
  olog  : Tbl Bytes
  oHead : Nat
  deriving DecidableEq, Repr

/-- An open guard sequence: target, value, whether GUARD_A has been written and when (R303). -/
structure Guard where
  target : Nat
  valueA : Option Word
  timeA  : Nat
  deriving DecidableEq, Repr

/-- Live counters with their wrap counts above bit 47, hidden deltas, and the freeze banks by initiator (R343, R346, R353). -/
structure Counters where
  live    : Tbl Nat
  delta   : Tbl Nat
  freeze  : Tbl (Tbl Nat)
  deriving DecidableEq, Repr

/-- Power states (R322): the constructors in the order of the codes of JCS_AON_INST_POWER. -/
inductive PState where
  | active | doze | nap | goingOff | off | restoring | starting | faulted | resetting
  deriving DecidableEq, Repr, Inhabited

/-- The start-up phases an instance has still to reach (R334). -/
inductive StartPhase where
  | epoch | clock | sram | image | selfTest | ready
  deriving DecidableEq, Repr

/-- The phases of a transition to OFF and of the return (R328, R329). -/
inductive OffPhase where
  | none | drain | rollback | save | entering | power | image | state | selfTest
  deriving DecidableEq, Repr

/-- Power, start-up and image state of an instance (R322 to R341). -/
structure PowerSt where
  state      : PState
  start      : StartPhase
  request    : Option PState
  entering   : Option PState
  waking     : Bool
  wakeAfter  : Bool
  offPhase   : OffPhase
  offSpill   : Bool
  offFromReq : Bool
  returnDue  : Bool
  selfCause  : Nat
  ready      : Bool
  imageBad   : Bool
  noImage    : Bool
  offline    : Bool
  evacuate   : Bool
  trialReady : Bool
  trialTest  : Bool
  resetType  : Option Nat
  deriving DecidableEq, Repr

/-- Booted package and boot record (R335 to R341). -/
structure BootSt where
  slotB      : Bool
  trial      : Bool
  replaced   : Bool
  version    : Nat
  seqSha     : Bytes
  boot       : BootRec
  programs   : List Program
  programBad : Bool
  deriving DecidableEq, Repr

/-- A descriptor in the queue, with the initiator that pushed it (R308, R309). -/
structure Descr where
  init  : Nat
  words : List Word
  deriving DecidableEq, Repr

/-- The stage of a chunk of a LOAD: not yet started, its read outstanding, written and not yet committed everywhere, or ended
(R280 to R285). -/
inductive LoadPhase where
  | waiting | reading | written | ended
  deriving DecidableEq, Repr

/-- A chunk of a running LOAD, and where its bytes lie in host memory. -/
structure LoadChunk where
  id    : ChunkId
  addr  : Nat
  phase : LoadPhase
  deriving DecidableEq, Repr

/-- The stages of a cold-tier command: decodes awaited, contents, first flush, header, second flush, zone table, its flush,
deallocation; and of a cold load: header, index, chunks (R290 to R293). -/
inductive ColdStage where
  | gather | pieces | flush1 | header | flush2 | table | tableFlush | dealloc | readHeader | readIndex | readChunks
  deriving DecidableEq, Repr

/-- A cold-tier command at work: its zones, the pieces it writes into them, and the index it has read. -/
structure ColdRun where
  stage  : ColdStage
  seq    : Nat
  step   : Nat
  chunks : Nat
  zones  : List Nat
  pieces : List Bytes
  next   : Nat
  crc    : BitVec 64
  index  : List (ChunkId × BitVec 64 × Nat)
  deriving DecidableEq, Repr

/-- A running command (R311): what its kind needs. `frags` are the rows a COLONY_CHECK has still to finish. -/
structure Running where
  serial : Nat
  descr  : Descr
  chunks : List LoadChunk
  counts : List Nat
  first  : List (Option ChunkId)
  frags  : List FragId
  items  : Nat
  cold   : Option ColdRun
  deriving DecidableEq, Repr

/-- Command queue of an instance (R308 to R312), by initiator: words of incomplete descriptors, orphan words, completion bases. -/
structure CmdQ where
  asm     : Tbl (List Word)
  orphans : Tbl Nat
  base    : Tbl Nat
  queue   : List Descr
  running : List Running
  next    : Nat
  deriving DecidableEq, Repr

/-- A message: its words and its stamp (R313). -/
structure Msg where
  words : List Word
  stamp : Word
  deriving DecidableEq, Repr

/-- Mailboxes, 0 to 7 inbound and 8 to 15 outbound (R313, R314). -/
structure Mbox where
  boxes : Tbl (List Msg)
  seqs  : Tbl Nat
  deriving DecidableEq, Repr

/-- An owner of a buffer (R315). -/
inductive BufOwner where
  | init (n : Nat)
  | unit (u : Nat)
  | ctx (x : Nat)
  deriving DecidableEq, Repr

/-- An owned buffer of the pool (R315). -/
structure BufEntry where
  share    : Nat
  lentFrom : Nat
  ctx      : Option Nat
  owners   : List BufOwner
  deferred : List BufOwner
  deriving DecidableEq, Repr

/-- The buffer pool (R315 to R320, R393, R394). -/
structure Pool where
  owned     : Tbl BufEntry
  free      : List Nat
  threaded  : Bool
  rebuilding : Bool
  active    : List Nat
  result    : Tbl Nat
  deriving DecidableEq, Repr

/-- The body of an operation of R258; of a code that it does not list nothing is read. -/
inductive OpBody where
  | delta (b : DeltaBody) (payload : List Bytes)
  | shadow (b : DeltaBody) (payload : List Bytes)
  | commit (b : CommitBody)
  | ledgerPut (e : LedgerEntry)
  | ledgerRetire (b : RetireBody)
  | ledgerRead (b : RetireBody)
  | fragRead (b : FragBody)
  | rebuildPut (b : RebuildBody) (payload : List Bytes)
  | cutover (b : CutoverBody)
  | gradForward (e : LedgerEntry)
  | reemitForward (r : ReemitReq)
  | degraded (b : DegradedBody)
  | handshake (b : HandshakeBody)
  | unlisted (code : Nat)
  deriving DecidableEq, Repr

/-- The owner of an outbound operation: who acts on its answer (R264, R272). -/
inductive OpOwner where
  | coding (record : Nat) (f : FragId) (isCommit : Bool)
  | grad (ctx q step : Nat)
  | scalars (src : Home) (ctx layer step : Nat)
  | retire
  | refetch (ctx q step : Nat)
  | frag (job : Nat) (pos : Pos)
  | ledger (job : Nat)
  | push (id : Nat)
  | put (c : ChunkId)
  | cutover (ctx q : Nat)
  | forward
  | degraded
  | offer
  deriving DecidableEq, Repr

/-- An operation an owner has handed to the fabric port (R264 to R266, R272): `share` 0 to 4 as CPL_SHARE. -/
structure OutOp where
  id     : Nat
  dst    : Home
  ctx    : Nat
  body   : OpBody
  owner  : OpOwner
  share  : Nat
  poison : Nat
  held   : Bool
  deriving DecidableEq, Repr

/-- A live completion-table entry (R272, R273). -/
structure CplEntry where
  gen     : Nat
  seq     : Nat
  tries   : Nat
  version : Nat
  op      : OutOp
  deriving DecidableEq, Repr

/-- An operation as it arrived (R256). -/
structure InOp where
  hdr  : FabHdr
  body : OpBody
  deriving DecidableEq, Repr

/-- An operation at the AON wake front end (R276): buffered, or one that found it full and was answered, whose SEQ is entered in its
channel's map when the wake completes. -/
structure Buffered where
  op      : InOp
  refused : Bool
  deriving DecidableEq, Repr

/-- A recorded answer (R271). -/
structure Answer where
  seq    : Nat
  status : Nat
  reason : Nat
  info   : Nat
  deriving DecidableEq, Repr

/-- A channel pair with one peer (R268 to R274). -/
structure Chan where
  peer     : Home
  outSeq   : Nat
  resetDue : Bool
  parked   : Bool
  offWait  : Bool
  inNext   : Option Nat
  answered : List Nat
  deferred : List Nat
  record   : List Answer
  waiting  : List InOp
  deriving DecidableEq, Repr

/-- Fabric port state (R255, R266, R268 to R279). -/
structure Fabric where
  chans   : List Chan
  cpl     : Tbl CplEntry
  gens    : Tbl Nat
  outq    : List OutOp
  retry   : List OutOp
  nextId  : Nat
  frontEnd : List Buffered
  partials : List InOp
  joins   : List (Nat × Home)
  routes  : Tbl Nat
  losses  : List Nat
  deriving DecidableEq, Repr

/-- A heartbeat partner (R116 to R118, R263). -/
structure Partner where
  home  : Home
  epoch : Option Nat
  armed : Bool
  lost  : Bool
  deriving DecidableEq, Repr

/-- Heartbeat state of the instance AON section (R117). -/
structure HbSt where
  partners : List Partner
  seq      : Nat
  epoch    : Nat
  linkNotices : List Nat
  deriving DecidableEq, Repr

/-- The stages of an accepted gradient (R15 to R32). -/
inductive WorkStage where
  | pending | updating | written | skipped
  deriving DecidableEq, Repr

/-- Where the payload of an accepted gradient is (R18, R190). -/
inductive GradPlace where
  | ingress | clip | spilled | dropped
  deriving DecidableEq, Repr

/-- One accepted gradient of a range, from arrival to retirement (R13 to R32, R190). `resend`: its ledger copy was answered STALE or
its holder was lost, so that the range's later steps wait for the copy sent again (R21). -/
structure Work where
  ctx     : Nat
  q       : Nat
  step    : Nat
  layer   : Nat
  format  : Nat
  flags   : Nat
  payload : Bytes
  stage   : WorkStage
  place   : GradPlace
  clipAt  : Nat
  putsDue : List Home
  putSent : Bool
  resend  : Bool
  coded   : Bool
  emitted : Bool
  retired : Bool
  deriving DecidableEq, Repr

/-- The partial norm of a layer and step (R22, R23, R187). -/
structure NormPart where
  ctx      : Nat
  layer    : Nat
  step     : Nat
  lastAt   : Option Nat
  arrived  : List (Nat × Option (Nat × Bytes))
  sent     : Bool
  deriving DecidableEq, Repr

/-- The step scalars of a layer and step in the name of one home, this home or a lost member it serves (R108, R184, R415). -/
structure Scalars where
  src   : Home
  ctx   : Nat
  layer : Nat
  step  : Nat
  vals  : List Word
  acks  : List Home
  sentPut : Bool
  retired : Bool
  deriving DecidableEq, Repr

/-- A chunk an update writes: what it held and what it will hold (R27, R89). -/
structure FlightChunk where
  chunk : ChunkId
  old   : Bytes
  new   : Bytes
  deriving DecidableEq, Repr

/-- A range update, or a tile update, in flight (R186, R194): its ranges and the bytes to be written; `tile` is the tile whose
preconditioner stages run on the array (R195). -/
structure Flight where
  ctx    : Nat
  step   : Nat
  layer  : Nat
  ranges : List Nat
  tformat : Nat
  newChunks : List FlightChunk
  standin : Option Home
  tile    : Option Nat
  deriving DecidableEq, Repr

/-- A preconditioner refresh in progress (R196); `held` says that it has held its tile. -/
structure Refresh where
  ctx   : Nat
  layer : Nat
  tile  : Nat
  due   : Nat
  done  : Bool
  held  : Bool
  lf    : Bytes
  rf    : Bytes
  deriving DecidableEq, Repr

/-- Sequencer state (R172 to R196); `stray`: beats that no start flag opened have been arriving on GRAD_IN (R171). -/
structure Opt where
  work     : List Work
  parts    : List NormPart
  scalars  : List Scalars
  flights  : List Flight
  refreshes : List Refresh
  decisions : List (Nat × Nat × Nat × Bool)
  waits    : List (Nat × Nat × Nat)
  layerOrder : List (Nat × Nat × Nat)
  params   : Tbl (List Word)
  stray    : Bool
  deriving DecidableEq, Repr

/-- A holder a backlog record still owes, with what has been sent to it: 0 nothing, 1 the delta, 2 the commit (R91, R103). -/
structure Owe where
  frag  : FragId
  home  : Home
  first : Bool
  sent  : Nat
  deriving DecidableEq, Repr

/-- A backlog record (R103). `shadow` holds the sub-row granules of a SHADOW chunk (R114). -/
structure Backlog where
  id      : Nat
  chunk   : ChunkId
  srcPos  : Nat
  step    : Nat
  prev    : Nat
  digest  : BitVec 64
  mask    : Nat
  delta   : List Bytes
  shadow  : Option (Nat × List Bytes)
  tformat : Nat
  isLoad  : Bool
  spillAt : Option Nat
  recon   : Bool
  owes    : List Owe
  deriving DecidableEq, Repr

/-- An open step of a member at a holder (R99). -/
structure OpenStep where
  ctx      : Nat
  frag     : FragId
  member   : Nat
  step     : Nat
  mask     : Nat
  kept     : List Bytes
  poisoned : Bool
  heals    : Bool
  source   : Home
  version  : Nat
  deriving DecidableEq, Repr

/-- A row being built, with the positions whose bit is set (R151). -/
structure Building where
  ctx  : Nat
  frag : FragId
  bits : List Nat
  deriving DecidableEq, Repr

/-- A plan kept in the plan cache (R85); `doomed` once a flush found it in use (R375). -/
structure CachedPlan where
  ctx     : Nat
  stripe  : Nat
  pattern : List Pos
  plan    : Option Plan
  doomed  : Bool
  deriving DecidableEq, Repr

/-- A ledger entry held, and whether its bytes are damaged (R94, R107, R240). -/
structure Held where
  ctx     : Nat
  entry   : LedgerEntry
  addr    : Nat
  damaged : Bool
  deriving DecidableEq, Repr

/-- Coding stage, holder tables and ledger (R89 to R111). -/
structure Coding where
  backlog   : List Backlog
  opens     : List OpenStep
  building  : List Building
  damaged   : List (Nat × FragId)
  repoison  : List (Nat × FragId)
  needFull  : List (Nat × FragId)
  plans     : List CachedPlan
  ledger    : List Held
  unledgered : List (Nat × Nat)
  nextRec   : Nat
  lastHolder : Option Home
  deriving DecidableEq, Repr

/-- A built record waiting to be sent (R229). -/
structure Built where
  ctx    : Nat
  q      : Nat
  step   : Nat
  layer  : Nat
  bytes  : Bytes
  counts : List Nat
  standin : Option Home
  deriving DecidableEq, Repr

/-- The counts of R233 of a layer and step, and the transport CRC of each fresh record by range (R235). -/
structure EmitTally where
  ctx    : Nat
  layer  : Nat
  step   : Nat
  counts : List Nat
  crcs   : List (Nat × BitVec 64)
  deriving DecidableEq, Repr

/-- Emission (R228 to R235). `tally` holds per (context, layer, step) the counts of R233 and the transport CRCs. -/
structure Emit where
  waiting  : List Built
  reemit   : List ReemitReq
  stopped  : Bool
  last     : Bytes
  tally    : List EmitTally
  formats  : List (ChunkId × Nat × Nat)
  deriving DecidableEq, Repr

/-- A fragment in hand: version, bytes by granule, and vector (R260). -/
structure Frag where
  pos     : Pos
  version : Nat
  bytes   : Bytes
  mask    : Nat
  poison  : Bool
  vector  : List VecEntry
  deriving DecidableEq, Repr

/-- One row of a decode (R82, R83, R127): what is lost, what is in hand. -/
structure RowJob where
  target : FragId
  chunk  : ChunkId
  lost   : List Pos
  off    : List Pos
  tried  : List (List Pos)
  asked  : List (Pos × Nat)
  got    : List Frag
  full   : Bool
  done   : Option (Nat × Bytes × Bool)
  failed : Option Nat
  deriving DecidableEq, Repr

/-- What a decode is for (R127, R243, R244, R252, R291, R152). -/
inductive JobKind where
  | standin (lost : Home) (q : Nat)
  | chunkRepair (slot line : Nat) (scrub : Bool)
  | rowRepair (f : FragId) (lines : List Nat) (check : Bool)
  | shadowRepair (slot line : Nat)
  deriving DecidableEq, Repr

/-- A decode, repair or check in progress (R132, R243, R244). -/
structure Job where
  id      : Nat
  ctx     : Nat
  kind    : JobKind
  rows    : List RowJob
  phase   : Nat
  ledger  : List LedgerEntry
  floorSeen : Option (Bool × Nat)
  mended  : List Nat
  queued  : Bool
  deriving DecidableEq, Repr

/-- A decoded chunk kept in the fault-service share (R126, R135). -/
structure Copy where
  chunk : ChunkId
  info  : ChunkRec
  fresh : Bool
  bytes : Bytes
  deriving DecidableEq, Repr

/-- A fragment of this instance that a decode of its own found unreadable: lines of a chunk or of a held row, whose repair is due
(R240). -/
inductive Fix where
  | chunk (c : ChunkId) (slot line : Nat)
  | row (x : Nat) (f : FragId) (lines : List Nat)
  deriving DecidableEq, Repr

/-- The context a due repair belongs to. -/
def Fix.ctx : Fix → Nat
  | .chunk c _ _ => c.ctx
  | .row x _ _ => x

/-- Fault service (R124 to R142). -/
structure FaultSt where
  jobs    : List Job
  nextJob : Nat
  copies  : List Copy
  served  : List (Nat × Home)
  firstServed : List (Nat × Home × Nat)
  waiters : List (InOp)
  records : List Bytes
  recCount : Nat
  adopted : List (Nat × Nat)
  settled : List (Nat × Nat × Nat)
  toFix   : List Fix
  deriving DecidableEq, Repr

/-- A range to be moved from this instance (R145, R153 to R156). -/
structure Moving where
  ctx      : Nat
  q        : Nat
  dst      : Home
  standin  : Option Home
  slots    : List (ChunkId × Nat)
  sent     : List ChunkId
  probe    : Bool
  full     : List ChunkId
  owed     : List (ChunkId × Nat × Nat × Nat)
  unacked  : Nat
  cutSent  : Bool
  attempts : Nat
  faulted  : Bool
  deriving DecidableEq, Repr

/-- A push of R152 not yet acknowledged. -/
structure Push where
  id    : Nat
  chunk : ChunkId
  frag  : FragId
  home  : Home
  pos   : Nat
  recon : Bool
  sent  : Bool
  deriving DecidableEq, Repr

/-- A doubly coded range: the data fragments its chunks are under the old stripes (R146). -/
structure Dual where
  ctx   : Nat
  q     : Nat
  frags : List (ChunkId × FragId)
  deriving DecidableEq, Repr

/-- A range in transition elsewhere: the home that served it under the previous map, whether it was lost then, and the
destination, until the destination is heard to serve it (R145, R159; log entry 99). -/
structure Remote where
  ctx  : Nat
  q    : Nat
  home : Home
  gone : Bool
  dst  : Home
  deriving DecidableEq, Repr

/-- Membership unit (R143 to R165). -/
structure Memb where
  moving   : List Moving
  remote   : List Remote
  incoming : List (Nat × Nat)
  departed : List (Nat × Nat × Home)
  pushes   : List Push
  nextPush : Nat
  dual     : List Dual
  done     : List Nat
  due      : List Nat
  warn     : Nat
  eccWindow : List Nat
  eccMeasure : Nat
  linkMeasure : Nat
  stopped  : List Nat
  reserve  : Bool
  deriving DecidableEq, Repr

/-- Memory of an instance: stack bytes and check bytes, valid map, spill, staging (R47, R60, R61, R237). -/
structure MemSt where
  stack    : Memory
  check    : Memory
  valid    : List Nat
  parity   : List Nat
  spill    : Option (List Nat)
  preserved : Option (List Nat)
  staging  : Memory
  stagePoison : List StageLine
  deriving DecidableEq, Repr

/-- ECC unit (R240 to R242, R391). -/
structure EccSt where
  ueTimes : List Nat
  corr    : List (Nat × Nat × Bool)
  lastUe  : Option (Nat × Nat)
  lastInfo : Nat
  deriving DecidableEq, Repr

/-- Scrubber (R248 to R252, R352). -/
structure ScrubSt where
  running : Bool
  began   : Bool
  slot    : Nat
  phase   : Nat
  startT  : Nat
  periodS : Nat
  lastMs  : Nat
  debt    : Nat
  late    : Bool
  forced  : Bool
  deriving DecidableEq, Repr

/-- A numeric job slot (R216, R388, R389): the STATE shown, and the job itself (`work` 0 none, 1 QUEUED, 2 RUNNING), which a
refused submission leaves alone. -/
structure ArrJob where
  state  : Nat
  reason : Nat
  a      : Nat
  b      : Nat
  outA   : Nat
  six    : Bool
  work   : Nat
  serial : Nat
  deriving DecidableEq, Repr

/-- Work for the array (R201): a decode or a rebuild of the fault service unit, the preconditioner stages of a tile being updated, a
refresh, a self-test, a submitted job. -/
inductive ArrWork where
  | decode (job : Nat)
  | tile (ctx layer tile step : Nat)
  | refresh (ctx layer tile due : Nat)
  | selfTest
  | submitted (bank serial : Nat)
  deriving DecidableEq, Repr

/-- The cells of the array (R199): which of the two banks is active, and which job each bank and the operand registers were last
filled by, 0 for none since reset. What a cell then holds is `ArrCells.window`, `ArrCells.gf` and `ArrCells.operands`. -/
structure ArrCells where
  active   : Nat
  bank0    : Nat
  bank1    : Nat
  operands : Nat
  filled   : Nat
  deriving DecidableEq, Repr

/-- Array and margin state (R199 to R201, R216, R217, R350 to R352): `run` the job on the active bank, `parked` the one on the other,
`queue` what waits in submission order, `late` the tiles whose refreshes run in class 2. -/
structure ArrSt where
  jobs     : Tbl ArrJob
  run      : Option ArrWork
  parked   : Option ArrWork
  queue    : List ArrWork
  late     : List (Nat × Nat × Nat)
  cells    : ArrCells
  lastTest : Nat
  sampling : Bool
  restart  : Bool
  lowSupply : Bool
  steps    : Nat
  hbmT     : Nat
  hbmV     : Nat
  marginHbm : Nat
  marginArr : Option Nat
  marginEcc : Nat
  marginFrom : Nat
  marginDebt : Nat
  deriving DecidableEq, Repr

/-- What the record of one step needs beside the counts: arrival of its first and last accepted gradient, ranges
updated, missing ranges, flags (R348). -/
structure StepMark where
  step    : Nat
  first   : Nat
  last    : Nat
  updated : Nat
  missing : Nat
  flags   : Nat
  layers  : List (Nat × Nat)
  deriving DecidableEq, Repr

/-- The per-step counts of a context since its last record (R348, R349). -/
structure StepTally where
  ctx     : Nat
  counts  : List Nat
  marks   : List StepMark
  lagMax  : Nat
  throttledAt : Nat
  deriving DecidableEq, Repr

/-- What a life record carries from one record to the next (R353). `mins` holds ARRAY_MARGIN_MIN, HBM_TIMING_MIN,
HBM_VOLTAGE_MIN, ECC_RATE_MAX and LINK_RATE_MAX; `images` the 16-byte entries. -/
structure LifeSt where
  seq     : Nat
  seconds : List Nat
  first   : Bytes
  last    : Bytes
  mins    : List Nat
  images  : List Bytes
  totals  : Tbl Nat
  deriving DecidableEq, Repr

/-- Telemetry and life record (R343 to R354). `staged` is the record in the AON staging, `flash` what the DMC has
acknowledged, with its record. -/
structure TelemSt where
  cnt      : Counters
  tallies  : List StepTally
  stepBase : Nat
  stepSize : Nat
  stepHead : Nat
  stepTail : Nat
  lastHead : Bytes
  life     : LifeSt
  staged   : Bytes
  stagedSt : LifeSt
  flash    : LifeSt
  flashRec : Bytes
  pending  : Bool
  held     : Bool
  heldPeriodic : Bool
  sinceT   : Nat
  fracT    : List Nat
  lifeDebt : Nat
  lifeStart : Option Nat
  throttled : Nat
  deriving DecidableEq, Repr

/-- A zone of the cold partition (R290): state 0 FREE, 1 SPARE, 2 IMAGE, 3 RETIRED, 4 a copy of the zone table. -/
structure Zone where
  state   : Nat
  written : Nat
  ctx     : Nat
  seq     : Nat
  deriving DecidableEq, Repr

/-- A sealed cold image (R291). -/
structure ColdImage where
  ctx    : Nat
  seq    : Nat
  step   : Nat
  chunks : Nat
  zones  : List Nat
  deriving DecidableEq, Repr

/-- An NVMe command outstanding: the running command it belongs to, or none for an erase (R288, R294). -/
structure NvCmd where
  owner : Option Nat
  last  : Bool
  deriving DecidableEq, Repr

/-- Cold tier of an instance (R288 to R294). `need` is the zones whose lack raised COLD_FULL. -/
structure ColdSt where
  zones    : List Zone
  tableSeq : Nat
  images   : List ColdImage
  full     : Bool
  need     : Nat
  lastCode : Nat
  lastKind : Nat
  nextSeq  : Nat
  nvme     : List NvCmd
  deriving DecidableEq, Repr

/-- Loading (R284, R287, R402). -/
structure LoadSt where
  written : Nat
  lastErr : Nat
  lastKind : Nat
  deriving DecidableEq, Repr

/-- User scalars of a context (R183, R374). -/
structure UserSt where
  pending : List Word
  pendStep : Nat
  armed   : List (Nat × List Word)
  late    : Bool
  deriving DecidableEq, Repr

/-- The maps of a context (R52, R67 to R73). `state` 0 FREE, 1 LIVE, 2 RELEASING; `slot` 0 EMPTY, 1 VALID, 2 COMMITTING. -/
structure CtxMap where
  state     : Nat
  image     : Option MapImage
  staged    : Option MapImage
  slot      : Nat
  barred    : List Nat
  loadResult : Nat
  commitResult : Nat
  preservedUsed : Bool
  deriving DecidableEq, Repr

/-- The membership of a context (R119 to R123, R262). `newest` is the home that declared the newest entry of the lost set (R121),
`waitFull` that the list of homes it could not take has filled (R120), `prev` the image in force before the transitions now open and
the homes lost then, from which a stand-in knows the pushes of a member that is lost later (R152, R159). -/
structure CtxMemb where
  lost     : List LostHome
  newest   : Home
  waiting  : List (LostHome × Home)
  waitFull : Bool
  prev     : Option (MapImage × List LostHome)
  saturated : Bool
  fenced   : Bool
  offline  : Bool
  matchIn  : List Home
  matchOut : List Home
  rollback : Bool
  amendT   : List (Home × Nat)
  ledgerEmpty : Bool
  floor    : Option Nat
  deriving DecidableEq, Repr

/-- The running state of a context (R14, R23, R33, R187, R305, R306, R142). -/
structure CtxRun where
  step     : Nat
  evacuate : Bool
  paused   : Bool
  halted   : List Nat
  lastCmd  : Nat
  window   : Option (List (Nat × Nat))
  endSteps : List (Nat × Nat)
  closed   : List Nat
  opened   : List Nat
  norms    : List (Nat × Word × Bool)
  normSeen : List Nat
  normLate : List Nat
  started  : Option Nat
  poolMin  : Nat
  deriving DecidableEq, Repr

/-- A context on an instance. -/
structure CtxSt where
  map  : CtxMap
  memb : CtxMemb
  run  : CtxRun
  user : UserSt
  deriving DecidableEq, Repr

/-- What OFF saves and the return restores (R328, R331). -/
structure Saved where
  ctxs   : Tbl CtxSt
  params : Tbl (List Word)
  regs   : Tbl Word
  deriving DecidableEq, Repr

/-- What the instance sees of the die, set before each command (R1, R36, R55); `bases` holds the first ledger slot of each instance,
where its context pool ends (R60, R65). -/
structure DieView where
  idx      : Nat
  node     : Nat
  time     : Nat
  detLock  : Bool
  testLock : Bool
  coldPriv : List Nat
  bases    : List Nat
  deriving DecidableEq, Repr

/-- An access held by a sleeping instance, with the context select it was made with; `bridge` says that the register bridge made
it (R42, R296, R358). -/
structure Stalled where
  init  : Initiator
  bridge : Bool
  ctx   : Nat
  addr  : Nat
  write : Option Word
  deriving DecidableEq, Repr

/-- Registers and control of an instance (R42, R296, R303, R307). -/
structure CtlSt where
  regs    : Tbl Word
  guards  : Tbl Guard
  locks   : List Nat
  logs    : Logs
  stalled : List Stalled
  deriving DecidableEq, Repr

/-- One engine instance (R35). -/
structure Inst where
  view   : DieView
  pw     : PowerSt
  boot   : BootSt
  ctl    : CtlSt
  cmdq   : CmdQ
  mbox   : Mbox
  pool   : Pool
  fab    : Fabric
  hb     : HbSt
  ctxs   : Tbl CtxSt
  opt    : Opt
  cod    : Coding
  emit   : Emit
  flt    : FaultSt
  memb   : Memb
  mem    : MemSt
  ecc    : EccSt
  scrub  : ScrubSt
  arr    : ArrSt
  telem  : TelemSt
  cold   : ColdSt
  load   : LoadSt
  saved  : Option Saved
  free   : Nat
  out    : List OutEvent
  deriving DecidableEq, Repr

end Sys2Proof.Machine
end

