-- ==== Sys2Proof/Machine/State.lean ====
section
/-! DEFINITION. The state of the block: the die-wide section, eight instances, the queue of waiting commands; the reasons
a step can stop; and the state after reset. -/

namespace Sys2Proof.Machine

/-- Why the block stops. -/
inductive Fault where
  /-- The AON clock has stopped, and the engine with it (R321, "the engine stops as a whole"): raised by every command
  that needs the engine while its AON clock stands. Safe: nothing is claimed of a stopped engine. -/
  | engineStopped
  deriving DecidableEq, Repr

/-- Why the model gives no meaning. -/
inductive Refusal where
  /-- A command whose meaning has not been written; raised by its arm of the dispatch. Safe. -/
  | notModelled (mnemonic : String)
  deriving DecidableEq, Repr

/-- The supply of the die: unpowered, running, or powered with a stopped AON clock (R321, R334, R342). -/
inductive Supply where
  | off | on | stopped
  deriving DecidableEq, Repr

/-- A received character (R357, R403). -/
structure RxChar where
  byte    : Byte
  framing : Bool
  brk     : Bool
  deriving DecidableEq, Repr

/-- The maintenance UART and its bridge (R357, R358, R403): `frame` holds the bytes of the bridge frame in progress, `waiting` says
that its access stalls. -/
structure Uart where
  rx       : List RxChar
  tx       : List Byte
  overruns : Nat
  executed : Nat
  discarded : Nat
  frame    : Bytes
  waiting  : Bool
  deriving DecidableEq, Repr

/-- The shared pins (R355, R356): whether the multiplexer is enabled and whether a hand-over is in progress. -/
structure Pins where
  muxOwns   : Bool
  switching : Bool
  deriving DecidableEq, Repr

/-- The die-wide section (R36). -/
structure Die where
  node     : Nat
  time     : Nat
  pll      : Bool
  detLock  : Bool
  ctl      : CtlSt
  counts   : Tbl Nat
  uart     : Uart
  pins     : Pins
  coldPriv : List Nat
  free     : Nat
  out      : List OutEvent
  deriving DecidableEq, Repr

/-- The block: supply, die-wide section, instances, and the commands that are waiting, first in, first out. -/
structure State where
  supply  : Supply
  die     : Die
  insts   : Vector Inst 8
  pending : List Instr
  deriving DecidableEq, Repr

/-- An empty ring (R301). -/
def Ring.empty : Ring := { entries := [], head := 0, mtail := 0, htail := 0, dropped := 0 }

/-- Empty logs (R301, R307). -/
def Logs.empty : Logs := { ring := Ring.empty, olog := [], oHead := 0 }

/-- Registers at reset, no guard sequence open, no LOCK set, empty logs. -/
def CtlSt.fresh : CtlSt := { regs := [], guards := [], locks := [], logs := Logs.empty, stalled := [] }

/-- A life state in which nothing has been recorded (R353; log entry 5). -/
def LifeSt.none : LifeSt :=
  { seq := 0, seconds := [0, 0, 0, 0, 0], first := List.replicate 64 0, last := List.replicate 64 0,
    mins := [0xF, 0xFFFF, 0xFFFF, 0, 0], images := [], totals := [] }

/-- What survives a loss of power: the acknowledged life record in flash, and the cold partition (R340, R342, R292, R354). -/
structure NonVol where
  flash    : LifeSt
  flashRec : Bytes
  cold     : ColdSt
  deriving DecidableEq, Repr

/-- What a loss of power leaves of the cold tier: sealed images and their zones (R292). -/
def ColdSt.sealedOnly (c : ColdSt) : ColdSt :=
  { c with nvme := [], full := false, need := 0, lastCode := 0, lastKind := 0,
           zones := c.zones.map (fun z =>
             if z.state = 2 ∧ !(c.images.any (fun x => x.seq = z.seq && x.ctx = z.ctx)) then
               { z with state := 0, ctx := 0, seq := 0 } else z) }

/-- What an instance keeps through a loss of power. -/
def Inst.nonVol (i : Inst) : NonVol :=
  { flash := i.telem.flash, flashRec := i.telem.flashRec, cold := i.cold.sealedOnly }

/-- A zone nothing has been written to. -/
def Zone.fresh (state : Nat) : Zone := { state := state, written := 0, ctx := 0, seq := 0 }

/-- A cold partition that has never been used: its zones, as the DMC's namespace gives them, are all FREE but the two of the
zone table (R288, R290; log entry 44). -/
def ColdSt.unused : ColdSt :=
  { zones := (List.range Config.coldZones).map (fun n => Zone.fresh (if n < 2 then 4 else 0)), tableSeq := 0, images := [],
    full := false, need := 0, lastCode := 0, lastKind := 0, nextSeq := 1, nvme := [] }

/-- A die nothing has ever happened on. -/
def NonVol.fresh : NonVol := { flash := LifeSt.none, flashRec := [], cold := ColdSt.unused }

/-- Sequencer state with nothing in it. -/
def Opt.empty : Opt :=
  { work := [], parts := [], scalars := [], flights := [], refreshes := [], decisions := [], waits := [],
    layerOrder := [], params := [], stray := false }

/-- Coding state with nothing in it. -/
def Coding.empty : Coding :=
  { backlog := [], opens := [], building := [], damaged := [], repoison := [], needFull := [], plans := [],
    ledger := [], unledgered := [], nextRec := 0, lastHolder := none }

/-- Fabric state after a reset: no channel has a base (R271). -/
def Fabric.empty : Fabric :=
  { chans := [], cpl := [], gens := [], outq := [], retry := [], nextId := 0, frontEnd := [], partials := [], joins := [],
    routes := [], losses := [] }

/-- Emission with nothing in it. -/
def Emit.empty : Emit :=
  { waiting := [], reemit := [], stopped := false, last := List.replicate 64 0, tally := [], formats := [] }

/-- Membership with nothing to do. -/
def Memb.empty : Memb :=
  { moving := [], remote := [], incoming := [], departed := [], pushes := [], nextPush := 0, dual := [], done := [], due := [],
    warn := 0, eccWindow := [0], eccMeasure := 0, linkMeasure := 0, stopped := [], reserve := false }

/-- The pool before its SRAM is cleared: nothing threaded (R318); share sizes of R394. -/
def Pool.fresh : Pool :=
  { owned := [], free := [], threaded := false, rebuilding := false, active := [192, 128, 64, 64, 32, 32],
    result := [] }

/-- Command queue with nothing in it. -/
def CmdQ.empty : CmdQ := { asm := [], orphans := [], base := [], queue := [], running := [], next := 0 }

/-- Scrubber not yet started (R392). -/
def ScrubSt.stopped : ScrubSt :=
  { running := false, began := false, slot := 0, phase := 0, startT := 0, periodS := 0, lastMs := 0, debt := 0, late := false,
    forced := false }

/-- Array with no job (R388); its cells hold zeros (log entry 141). -/
def ArrSt.idle : ArrSt :=
  { jobs := [], run := none, parked := none, queue := [], late := [],
    cells := { active := 0, bank0 := 0, bank1 := 0, operands := 0, filled := 0 }, lastTest := 0, sampling := false, restart := false, lowSupply := false, steps := 0,
    hbmT := 0, hbmV := 0, marginHbm := 0, marginArr := none, marginEcc := 0, marginFrom := 0, marginDebt := 0 }

/-- Telemetry at die power-on: counters zero, the life state the DMC loads from flash (R331, R354). -/
def TelemSt.fresh (n : NonVol) : TelemSt :=
  { cnt := { live := [], delta := [], freeze := [] }, tallies := [], stepBase := 0, stepSize := 0, stepHead := 0,
    stepTail := 0, lastHead := List.replicate 128 0, life := n.flash, staged := n.flashRec, stagedSt := n.flash,
    flash := n.flash, flashRec := n.flashRec, pending := false, held := false, heldPeriodic := false, sinceT := 0,
    fracT := [0, 0, 0, 0, 0], lifeDebt := 0, lifeStart := none, throttled := 0 }

/-- Boot state before a boot: slot A, no trial (R367; log entry 5). -/
def BootSt.fresh : BootSt :=
  { slotB := false, trial := false, replaced := false, version := 0, seqSha := [],
    boot := { activeB := false, tryNext := none, trialUsed := false }, programs := [], programBad := false }

/-- Power state after die power-on: STARTING, waiting for the Epoch phase (R322, R334). -/
def PowerSt.starting (p : StartPhase) : PowerSt :=
  { state := .starting, start := p, request := none, entering := none, waking := false,
    wakeAfter := false, offPhase := .none, offSpill := false, offFromReq := false, returnDue := false, selfCause := 0,
    ready := false, imageBad := false, noImage := false, offline := false, evacuate := false, trialReady := false,
    trialTest := false, resetType := none }

/-- Memory with nothing written (R61; log entry 4). -/
def MemSt.blank : MemSt :=
  { stack := [], check := [], valid := [], parity := [], spill := none, preserved := none, staging := [],
    stagePoison := [] }

/-- What an instance sees of a die at its reset. -/
def DieView.start (idx : Nat) : DieView :=
  { idx := idx, node := Config.node, time := 0, detLock := false, testLock := false, coldPriv := [], bases := [] }

/-- An instance at die power-on (R331, last column). -/
def Inst.powerOn (idx : Nat) (n : NonVol) : Inst :=
  { view := DieView.start idx, pw := PowerSt.starting .epoch, boot := BootSt.fresh,
    ctl := CtlSt.fresh, cmdq := CmdQ.empty,
    mbox := { boxes := [], seqs := [] }, pool := Pool.fresh, fab := Fabric.empty,
    hb := { partners := [], seq := 0, epoch := 0, linkNotices := [] }, ctxs := [], opt := Opt.empty,
    cod := Coding.empty, emit := Emit.empty,
    flt := { jobs := [], nextJob := 0, copies := [], served := [], firstServed := [], waiters := [], records := [],
             recCount := 0, adopted := [], settled := [], toFix := [] },
    memb := Memb.empty, mem := MemSt.blank, ecc := { ueTimes := [], corr := [], lastUe := none, lastInfo := 0 },
    scrub := ScrubSt.stopped, arr := ArrSt.idle, telem := TelemSt.fresh n, cold := n.cold,
    load := { written := 0, lastErr := 0, lastKind := 0 }, saved := none, free := 0, out := [] }

/-- The die-wide section at die power-on (R330, R363 to R366, R403, R404). -/
def Die.powerOn : Die :=
  { node := Config.node, time := 0, pll := false, detLock := false, ctl := CtlSt.fresh, counts := [],
    uart := { rx := [], tx := [], overruns := 0, executed := 0, discarded := 0, frame := [], waiting := false },
    pins := { muxOwns := false, switching := false }, coldPriv := [], free := 0, out := [] }

/-- The state after reset: the die at power-on (R330, R331), with no command waiting. -/
def State.reset : State :=
  { supply := .on, die := Die.powerOn, insts := Vector.ofFn (fun i => Inst.powerOn i.val NonVol.fresh), pending := [] }

end Sys2Proof.Machine
end

