-- ==== Sys2Proof/Machine/Log.lean ====
section
/-! DEFINITION. Counters, event rings, order logs and the output trace (R300 to R302, R307, R343, R399, R417). -/

namespace Sys2Proof.Machine

/- Counter indices (R399). -/
namespace Cnt
def gradAccepted := 0x00
def gradUnhomed := 0x01
def gradStepRange := 0x02
def gradDup := 0x03
def gradLate := 0x04
def gradMalformed := 0x05
def gradPoison := 0x06
def gradIncomplete := 0x07
def gradOverflow := 0x08
def gradLostInFault := 0x09
def gradLostClip := 0x0A
def updatePoisonSkip := 0x0B
def layerHalted := 0x0C
def noProgram := 0x0D
def noParams := 0x0E
def clipSpill := 0x0F
def rangesUpdated := 0x10
def noScalars := 0x11
def normLate := 0x12
def deltaDup := 0x20
def commitDup := 0x21
def openFull := 0x22
def maskMismatch := 0x23
def noExtent := 0x24
def backlogFull := 0x25
def ledgerFull := 0x26
def poisonDelta := 0x27
def rebuildDup := 0x28
def vectorGap := 0x29
def commitsSent := 0x2A
def ledgerPuts := 0x2B
def unledgeredMarks := 0x2C
def ledgerCrcFail := 0x2D
def digestFail := 0x40
def fsShareWait := 0x41
def caravanFault := 0x42
def windowDeny := 0x43
def decodes := 0x44
def degradedReads := 0x45
def fabricMalformed := 0x60
def fabricLateAnswer := 0x61
def fabricPark := 0x62
def fabricRetransmit := 0x63
def fabricSeqDrop := 0x64
def emitRanges := 0x80
def emitNan := 0x81
def emitSat := 0x82
def emitUnderflow := 0x83
def emitEsc := 0x84
def emitEscDenied := 0x85
def emitPoisonBlocks := 0x86
def emitReemit := 0x87
def emitReemitMiss := 0x88
def eccCeDemand := 0xA0
def eccCeScrub := 0xA1
def eccUe := 0xA2
def eccRepaired := 0xA3
def eccLost := 0xA4
def eccRepeat := 0xA5
def sramCe := 0xA6
def sramUe := 0xA7
def scrubLines := 0xA8
def scrubLaps := 0xA9
def scrubDigestSkip := 0xAA
def scrubDigestFail := 0xAB
def colonyChecked := 0xAC
def colonyMismatch := 0xAD
def colonyRepair := 0xAE
def eccTestAccesses := 0xAF
def validMapParity := 0xB0
def guardFaults := 0xC0
def eventDrop := 0xC1
def hostRingLag := 0xC2
def orderLogWrap := 0xC3
def cmdqFull := 0xC4
def poolFail := 0xC5
def poolBadRelease := 0xCB
def pcieReadErr := 0xCC
def stepRecordDrop := 0xCD
def lifeLate := 0xCE
def refusedInitiator := 0xCF
def lockedWrites := 0xD0
def throttleCycles := 0xE0
def dozeEntries := 0xE1
def napEntries := 0xE2
def wakes := 0xE3
def marginSamples := 0xE4
def marginAborted := 0xE5
def lostIncrements := 0xFF
end Cnt

/-- Whether an index carries a counter (R399). -/
def counterListed (k : Nat) : Bool :=
  [(0x00, 0x12), (0x20, 0x2D), (0x40, 0x45), (0x60, 0x64), (0x80, 0x88), (0xA0, 0xB0), (0xC0, 0xD0), (0xE0, 0xE5),
    (0xFF, 0xFF)].any (fun p => decide (p.1 ≤ k) && decide (k ≤ p.2))

/-- The bank of an initiator: 0 MGMT, 1 HOST, 2 SEQ, 3 DBG (R301, R307). -/
def Initiator.bank : Initiator → Nat
  | .mgmt => 0
  | .host => 1
  | .seq _ => 2
  | .dbg => 3

/-- A byte string with fields laid over it: offset, length, value. -/
def overlay (base : Bytes) (fields : List (Nat × Nat × Nat)) : Bytes :=
  fields.foldl (fun b f => b.take f.1 ++ natLe f.2.1 f.2.2 ++ b.drop (f.1 + f.2.1)) base

/-- A record of `n` zero bytes with fields laid over it. -/
def packed (n : Nat) (fields : List (Nat × Nat × Nat)) : Bytes := overlay (List.replicate n 0) fields

/-- An event-ring entry (R301). Argument offsets are those of the entry, 20 to 31. -/
def eventEntry (time code page : Nat) (ctx : Option Nat) (mapVersion : Nat) (init : Option Nat)
    (args : List (Nat × Nat × Nat)) : Bytes :=
  packed 32 ([(0, 8, time), (8, 2, code), (10, 1, page), (11, 1, ctx.getD 0xFF), (12, 4, mapVersion),
    (16, 1, init.getD 0xFF)] ++ args)

/-- One entry put at the producer index; the HOST tail is pushed ahead when the producer would meet it (R302). -/
def Ring.put (n : Nat) (e : Bytes) (r : Ring) : Ring × Nat :=
  let h := (r.head + 1) % n
  let lag := h = r.htail
  ({ r with entries := r.entries.put r.head e, head := h, htail := if lag then (r.htail + 1) % n else r.htail }, b2n lag)

/-- Whether the ring is full for the MGMT tail (R302). -/
def Ring.full (n : Nat) (r : Ring) : Bool := (r.head + 1) % n == r.mtail

/-- Free entries of a ring (R302). -/
def Ring.room (n : Nat) (r : Ring) : Nat := (r.mtail + n - 1 - r.head) % n

/-- The OVERFLOW entry, the first one written once there is room after a drop (R302, log entry 98): `ov` builds it
from the number dropped. Answers the ring and the HOST lags. -/
def Ring.overflow (n : Nat) (ov : Nat → Bytes) (r : Ring) : Ring × Nat :=
  if 0 < r.dropped ∧ 0 < r.room n then Ring.put n (ov r.dropped) { r with dropped := 0 } else (r, 0)

/-- Entries written in one action: all of them, or all dropped (R302, R405). Answers drops and HOST lags. -/
def Ring.push (n : Nat) (ov : Nat → Bytes) (es : List Bytes) (r : Ring) : Ring × Nat × Nat :=
  let o := r.overflow n ov
  if o.1.room n < es.length then ({ o.1 with dropped := o.1.dropped + es.length }, es.length, o.2)
  else es.foldl (fun (a : Ring × Nat × Nat) e => let p := a.1.put n e; (p.1, a.2.1, a.2.2 + p.2)) (o.1, 0, o.2)

/-- An order-log entry (R307). -/
def orderEntry (time init page offset : Nat) (value : Word) (outcome : Nat) (ctx : Option Nat) : Bytes :=
  packed 16 [(0, 4, time), (4, 1, init), (5, 1, page), (6, 2, offset), (8, 4, value.toNat), (12, 1, outcome),
    (13, 1, ctx.getD 0xFF)]

/-- An order-log entry written; answers whether it overwrote one (R307). -/
def Logs.order (e : Bytes) (l : Logs) : Logs × Bool :=
  ({ l with olog := l.olog.put l.oHead e, oHead := (l.oHead + 1) % 256 }, (l.olog.find l.oHead).isSome)

/- Order-log outcomes (R307). -/
namespace Ord
def applied := 0
def overruled := 1
def duplicate := 2
def refusedInitiator := 3
def locked := 4
def guardFault := 5
def badCommand := 6
def refused := 7
end Ord

/-- An addition to a counter: 48 bits of value with the wrap count above them (R343, R353). -/
def Counters.add (k n : Nat) (c : Counters) : Counters :=
  { c with live := c.live.put k ((c.live.getD 0 k + n) % 2 ^ 56), delta := c.delta.put k (c.delta.getD 0 k + n) }

/-- Counting on an instance (R343). -/
def Inst.count (k n : Nat) (i : Inst) : Inst :=
  if n = 0 then i else { i with telem := { i.telem with cnt := i.telem.cnt.add k n } }

/-- A context that has never been committed (R52). -/
def CtxSt.freeCtx : CtxSt :=
  { map := { state := 0, image := none, staged := none, slot := 0, barred := [],
             loadResult := 0, commitResult := 0, preservedUsed := false },
    memb := { lost := [], newest := { node := 0, idx := 0 }, waiting := [], waitFull := false, prev := none, saturated := false, fenced := false, offline := false, matchIn := [],
              matchOut := [], rollback := false, amendT := [], ledgerEmpty := false, floor := none },
    run := { step := 0, evacuate := false, paused := false, halted := [], lastCmd := 0, window := none,
             endSteps := [], closed := [], opened := [], norms := [], normSeen := [], normLate := [], started := none,
             poolMin := 0 },
    user := { pending := List.replicate 8 0, pendStep := 0, armed := [], late := false } }

/-- A context of the instance (R52). -/
def Inst.ctx (i : Inst) (x : Nat) : CtxSt := i.ctxs.getD CtxSt.freeCtx x
def Inst.setCtx (x : Nat) (c : CtxSt) (i : Inst) : Inst := { i with ctxs := i.ctxs.put x c }
def Inst.modCtx (x : Nat) (f : CtxSt → CtxSt) (i : Inst) : Inst := i.setCtx x (f (i.ctx x))
def Inst.modMap (x : Nat) (f : CtxMap → CtxMap) (i : Inst) : Inst := i.modCtx x (fun c => { c with map := f c.map })
def Inst.modMemb (x : Nat) (f : CtxMemb → CtxMemb) (i : Inst) : Inst := i.modCtx x (fun c => { c with memb := f c.memb })
def Inst.modRun (x : Nat) (f : CtxRun → CtxRun) (i : Inst) : Inst := i.modCtx x (fun c => { c with run := f c.run })
def Inst.modUser (x : Nat) (f : UserSt → UserSt) (i : Inst) : Inst := i.modCtx x (fun c => { c with user := f c.user })

/-- The committed image (R52): none unless LIVE. -/
def CtxSt.live (c : CtxSt) : Bool := c.map.state == 1
def Inst.image (i : Inst) (x : Nat) : Option MapImage := if (i.ctx x).live then (i.ctx x).map.image else none

/-- The image version and the map version in force (R119). -/
def CtxSt.imageVersion (c : CtxSt) : Nat := match c.map.image with | some m => m.head.version | none => 0
def CtxSt.mapVersion (c : CtxSt) : Nat :=
  match c.map.image with
  | some m => (m.head.version + c.memb.lost.length) % 2 ^ 32
  | none => 0

/-- Events written in one action on an instance's ring (R301, R302, R405). -/
def Inst.events (es : List (Nat × Nat × List (Nat × Nat × Nat))) (ctx : Option Nat) (init : Option Nat) (i : Inst) : Inst :=
  let ver := match ctx with | some x => (i.ctx x).mapVersion | none => 0
  let r := i.ctl.logs.ring.push 1024 (fun k => eventEntry i.view.time 0xFF02 0x10 none 0 none [(20, 4, k)]) (es.map (fun e => eventEntry i.view.time e.1 e.2.1 ctx ver init e.2.2))
  ({ i with ctl := { i.ctl with logs := { i.ctl.logs with ring := r.1 } } }.count Cnt.eventDrop r.2.1).count
    Cnt.hostRingLag r.2.2

/-- One event; its page is the page that owns the code (R362). -/
def Inst.event (code : Nat) (ctx : Option Nat) (args : List (Nat × Nat × Nat)) (i : Inst) : Inst :=
  i.events [(code, code / 256, args)] ctx none

/-- One event that a register access of an initiator caused. -/
def Inst.eventBy (code page : Nat) (ctx : Option Nat) (init : Nat) (args : List (Nat × Nat × Nat)) (i : Inst) : Inst :=
  i.events [(code, page, args)] ctx (some init)

/-- An order-log entry of an instance page (R307). -/
def Inst.order (init page offset : Nat) (value : Word) (outcome : Nat) (ctx : Option Nat) (i : Inst) : Inst :=
  let r := i.ctl.logs.order (orderEntry i.view.time init page offset value outcome ctx)
  { i with ctl := { i.ctl with logs := r.1 } }.count Cnt.orderLogWrap (b2n r.2)

/-- Something put on a port of the instance (log entry 3). -/
def Inst.emitOut (e : OutEvent) (i : Inst) : Inst := { i with out := i.out ++ [e] }

/- The die counters of R417, by offset on the AON page (R365). -/
namespace DieCnt
def eventDrop := 0x1A0
def hostRingLag := 0x1A4
def orderLogWrap := 0x1A8
def guardFaults := 0x1AC
def refusedInitiator := 0x1B0
def lockedWrites := 0x1B4
end DieCnt

/-- Counting on the die: 32 bits, wrapping (R417). -/
def Die.count (k n : Nat) (d : Die) : Die :=
  if n = 0 then d else { d with counts := d.counts.put k ((d.counts.getD 0 k + n) % 2 ^ 32) }

/-- One event on the die event ring (R301, R417). -/
def Die.eventBy (code page : Nat) (init : Option Nat) (args : List (Nat × Nat × Nat)) (d : Die) : Die :=
  let r := d.ctl.logs.ring.push 64 (fun k => eventEntry d.time 0xFF02 0x01 none 0 none [(20, 4, k)]) [eventEntry d.time code page none 0 init args]
  ({ d with ctl := { d.ctl with logs := { d.ctl.logs with ring := r.1 } } }.count DieCnt.eventDrop r.2.1).count DieCnt.hostRingLag r.2.2
def Die.event (code : Nat) (args : List (Nat × Nat × Nat)) (d : Die) : Die := d.eventBy code (code / 256) none args

/-- An order-log entry of a die-wide page (R307, R417). -/
def Die.order (init page offset : Nat) (value : Word) (outcome : Nat) (d : Die) : Die :=
  let r := d.ctl.logs.order (orderEntry d.time init page offset value outcome none)
  { d with ctl := { d.ctl with logs := r.1 } }.count DieCnt.orderLogWrap (b2n r.2)

/-- Something put on a port of the die. -/
def Die.emitOut (e : OutEvent) (d : Die) : Die := { d with out := d.out ++ [e] }

/-- A write of a consumer tail (R302): a tail beyond the producer index is bad.
Answers the ring and whether the tail was taken. -/
def Ring.setTail (n : Nat) (isM : Bool) (v : Nat) (r : Ring) : Ring × Bool :=
  let cur := if isM then r.mtail else r.htail
  if (v + n - cur) % n ≤ (r.head + n - cur) % n ∧ v < n then
    (if isM then { r with mtail := v } else { r with htail := v }, true)
  else (r, false)

/-- The counters a per-step record repeats, in its order: GRAD_ACCEPTED, then the eleven of bytes 60 to 103 (R348). -/
def tallyCounters : List Nat :=
  [Cnt.gradAccepted, Cnt.gradDup, Cnt.gradUnhomed, Cnt.gradStepRange, Cnt.gradMalformed, Cnt.gradPoison,
   Cnt.gradIncomplete, Cnt.gradLate, Cnt.gradLostInFault, Cnt.gradLostClip, Cnt.updatePoisonSkip, Cnt.layerHalted]

/-- The tally of a context since its last record (R349). -/
def Inst.tallyOf (i : Inst) (x : Nat) : StepTally :=
  (i.telem.tallies.find? (fun t => t.ctx = x)).getD { ctx := x, counts := List.replicate 12 0, marks := [], lagMax := 0, throttledAt := i.telem.throttled }
def Inst.setTally (t : StepTally) (i : Inst) : Inst :=
  { i with telem := { i.telem with tallies := i.telem.tallies.filter (fun u => u.ctx ≠ t.ctx) ++ [t] } }

/-- One of the counts of a per-step record, counted in the telemetry counter as well. -/
def Inst.tally (x k : Nat) (i : Inst) : Inst :=
  let t := i.tallyOf x
  (i.count (tallyCounters.getD k 0) 1).setTally { t with counts := setAt k (satAdd 32 (t.counts.getD k 0) 1) t.counts }

/-- A free value (log entry 9): the next of the instance's open values. -/
def Inst.freshValue (i : Inst) : Inst × BitVec 64 :=
  ({ i with free := i.free + 1 }, Config.freeValue (i.free * 16 + i.view.idx))

/-- The throttled cycles since this was last asked, which the power-cap controller gives by no rule of the spec, counted (R51, R399; log
entry 49). -/
def Inst.noteThrottle (i : Inst) : Inst :=
  let f := i.freshValue
  let n := f.2.toNat % 2 ^ 32
  ({ f.1 with telem := { f.1.telem with throttled := f.1.telem.throttled + n } }).count Cnt.throttleCycles n

end Sys2Proof.Machine
end

