-- ==== Sys2Proof/Machine/Life.lean ====
section
/-! DEFINITION. Life records, fault records, and the instance faulting its own datapath (R242, R333, R352 to R354, R377, R378). -/

namespace Sys2Proof.Machine

/-- AON cycles in a second (R321). -/
def aonHz : Nat := 50000000

/-- The code of a power state (R322). -/
def PState.code : PState → Nat
  | .active => 0 | .doze => 1 | .nap => 2 | .goingOff => 3 | .off => 4 | .restoring => 5 | .starting => 6
  | .faulted => 7 | .resetting => 8

/-- The SECONDS total a power state counts in (R353). -/
def PState.bucket : PState → Nat
  | .active => 0 | .doze => 1 | .nap => 2 | .off => 3 | _ => 4

/-- The heartbeat STATE of an instance (R117). -/
def Inst.hbState (i : Inst) : Nat :=
  if i.pw.offline then 5
  else match i.pw.state with
    | .active => 0 | .doze => 1 | .nap => 2 | .goingOff => 3 | .off => 3 | .restoring => 3
    | .starting => 4 | .resetting => 4 | .faulted => 5

/-- The debt of periodic work after an occurrence that began at `start` and ended at `e` (R352), in the unit of its arguments. -/
def debtAfter (p debt start e : Nat) : Nat :=
  let len := max (p / 2) (p - debt)
  let late := e - (start + len)
  debt + late - (p - len)

/-- AON time spent in the present power state added to its total (R353). -/
def Inst.accountTime (i : Inst) : Inst :=
  let k := i.pw.state.bucket
  let cy := i.telem.fracT.getD k 0 + (i.view.time - i.telem.sinceT)
  let l := i.telem.life
  { i with telem := { i.telem with
      fracT := setAt k (cy % aonHz) i.telem.fracT, sinceT := i.view.time,
      life := { l with seconds := setAt k (l.seconds.getD k 0 + cy / aonHz) l.seconds } } }

/-- A change of power state. -/
def Inst.setPState (p : PState) (i : Inst) : Inst :=
  let j := i.accountTime
  { j with pw := { j.pw with state := p } }

/-- The hidden deltas folded into the lifetime totals, which stick at their maximum (R353). -/
def Inst.foldDeltas (i : Inst) : Inst :=
  let l := i.telem.life
  { i with telem := { i.telem with
      cnt := { i.telem.cnt with delta := [] },
      life := { l with totals := i.telem.cnt.delta.foldl (fun t d => t.put d.1 (satAdd 64 (t.getD 0 d.1) d.2)) l.totals } } }

/-- The life record of a life state (R353). -/
def lifeRecord (l : LifeSt) (epoch idx time : Nat) : Bytes :=
  let secs := (List.range 5).map (fun k => (24 + 8 * k, 8, l.seconds.getD k 0))
  let totals := l.totals.filterMap (fun t => if t.1 < 256 then some (512 + 8 * t.1, 8, t.2) else none)
  let head := packed 4096 ([(0, 4, 0x4546494C), (4, 4, l.seq), (8, 4, epoch), (12, 1, idx), (16, 8, time)] ++ secs ++
    [(64, 64, leNat l.first), (128, 64, leNat l.last), (192, 1, l.mins.getD 0 0), (194, 2, l.mins.getD 1 0),
     (196, 2, l.mins.getD 2 0), (200, 4, l.mins.getD 3 0), (204, 4, l.mins.getD 4 0), (256, 256, leNat l.images.flatten)] ++ totals)
  overlay head [(4088, 8, (crc64 (head.take 4088)).toNat)]

/-- The record assembled in the AON staging, and LIFE_PENDING raised (R354). -/
def Inst.assembleLife (i : Inst) : Inst :=
  let j := i.accountTime.foldDeltas
  let l := { j.telem.life with seq := (j.telem.life.seq + 1) % 2 ^ 32 }
  { j with telem := { j.telem with life := l, stagedSt := l, pending := true, held := false,
                                   staged := lifeRecord l j.hb.epoch j.view.idx j.view.time } }

/-- A trigger of R354: while a record is pending it is held, and a periodic one that is held is late. -/
def Inst.lifeTrigger (periodic : Bool) (i : Inst) : Inst :=
  if i.telem.pending then
    let j := { i with telem := { i.telem with held := true, heldPeriodic := i.telem.heldPeriodic || periodic } }
    if periodic then (j.count Cnt.lifeLate 1).event 0x2004 none [] else j
  else i.assembleLife

/-- A fault record (R378). `detail` is its eight DETAIL bytes as a number. -/
structure FaultRec where
  kind     : Nat
  cause    : Nat
  ctx      : Option Nat
  subject  : Home
  lostCount : Nat := 0
  before   : Nat := 0
  after    : Nat := 0
  detector : Home
  here     : Bool := false
  stripe   : Nat := 0
  firstRow : Nat := 0
  rows     : Nat := 0
  layer    : Nat := 0
  detail   : Nat := 0
  deriving DecidableEq, Repr

/-- The home this instance is (R4). -/
def Inst.self (i : Inst) : Home := { node := i.view.node % 2 ^ 16, idx := i.view.idx }

/-- A fault record written: the last 16 are kept, the newest first; the event, and the life record (R354, R377, R378). -/
def Inst.faultRecord (f : FaultRec) (i : Inst) : Inst :=
  let b := packed 64 [(0, 8, i.view.time), (8, 1, f.kind), (9, 1, f.cause), (10, 1, f.ctx.getD 0xFF),
    (11, 1, b2n i.memb.reserve + 2 * b2n f.here), (12, 2, f.subject.node), (14, 1, f.subject.idx), (15, 1, f.lostCount),
    (16, 4, f.before), (20, 4, f.after), (24, 2, f.detector.node), (26, 1, f.detector.idx), (28, 4, f.stripe),
    (32, 4, f.firstRow), (36, 4, f.rows), (40, 4, f.layer), (44, 4, i.hb.epoch), (48, 8, f.detail)]
  let n := (i.flt.recCount + 1) % 2 ^ 32
  let l := i.telem.life
  let j := { i with flt := { i.flt with records := (b :: i.flt.records).take 16, recCount := n },
                    telem := { i.telem with life := { l with last := b, first := if leNat l.first = 0 then b else l.first } } }
  (j.event 0x1501 f.ctx [(20, 1, f.kind), (21, 1, f.cause), (24, 4, n)]).lifeTrigger false

/-- The 32-byte header an operation leaves with: SRC_NODE is zero, which the endpoint stamps (R256). -/
def headerBytes (dst : Home) (h : FabHdr) : Bytes :=
  packed 32 [(0, 1, h.opcode), (1, 1, h.ctx), (2, 1, b2n h.flagged + 2 * b2n h.retransmit + 4 * b2n h.message), (3, 1, h.srcHome),
    (6, 2, dst.node), (8, 1, dst.idx), (9, 1, h.granules), (10, 2, h.ctxTag), (12, 4, h.mapVersion), (16, 4, h.seq), (20, 4, h.tag),
    (24, 8, h.poison)]

/-- A HEARTBEAT to a partner with a given STATE (R117, R256, R258). -/
def Inst.heartbeatTo (i : Inst) (state : Nat) (h : Home) : OutEvent :=
  let hdr : FabHdr :=
    { opcode := 0x10, ctx := 0xFF, srcNode := 0, srcHome := i.view.idx, flagged := false, retransmit := false, message := false,
      granules := 0, ctxTag := 0, mapVersion := 0, seq := 0, tag := 0, poison := 0 }
  .heartbeat (headerBytes h hdr)
    (packed 16 [(0, 1, i.view.idx), (1, 1, state), (2, 2, i.hb.seq), (4, 4, i.hb.epoch)])

/-- A HEARTBEAT to every partner, with the present STATE (R117). -/
def Inst.sendHeartbeats (i : Inst) : Inst := { i with out := i.out ++ i.hb.partners.map (fun p => i.heartbeatTo i.hbState p.home) }

/-- The instance faults its own datapath (R118, R242, R333): FAULTED, its cause, a fault record, a HEARTBEAT with STATE
FAULTED; its completion table and staging are lost with it (R273, R320). -/
def Inst.selfFault (cause detail : Nat) (i : Inst) : Inst :=
  if i.pw.state = .faulted then i
  else
    let j := i.setPState .faulted
    let k := { j with pw := { j.pw with selfCause := cause, request := none, entering := none,
                                        waking := false, wakeAfter := false, offPhase := .none },
                      fab := { j.fab with cpl := [], outq := [], retry := [], frontEnd := [], partials := [] },
                      mem := { j.mem with staging := [], stagePoison := [] } }
    (k.faultRecord { kind := 2, cause := cause, ctx := none, subject := k.self, detector := k.self, detail := detail }).sendHeartbeats

/-- Whether the datapath of the instance does work now: ACTIVE, or draining for OFF (R39, R328). -/
def Inst.running (i : Inst) : Bool := i.pw.state == .active || i.pw.state == .goingOff

/-- A wake request (R325, R326): it abandons a request not yet granted; during an entry already granted it is kept, and the wake
follows the entry; in DOZE or NAP it starts a wake. -/
def Inst.wakeUp (i : Inst) : Inst :=
  match i.pw.state with
  | .active => { i with pw := { i.pw with request := none } }
  | .doze | .nap =>
    if i.pw.entering.isSome then { i with pw := { i.pw with wakeAfter := true } }
    else { i with pw := { i.pw with waking := true, request := none } }
  | _ => i

/- The fixed regions by slot (R60). -/
namespace Slot
def chunkTable := 0x1768800
def mapRegion := 0x1748800
def spill := 0x1748500
def ledgerEnd := 0x1748500
def total := 0x1780000
end Slot

/-- A register of an instance page, or its reset value (R297; log entry 24). -/
def Inst.reg (i : Inst) (page off reset : Nat) : Nat := ((i.ctl.regs.find (page * 0x1000 + off)).map BitVec.toNat).getD reset

/-- GiB of the ledger region and of its LEDGER and BACKLOG parts (R60, R106, R382). -/
def Inst.ledgerGiB (i : Inst) : Nat × Nat × Nat :=
  let w := i.reg 0x18 0x100 0x00010204
  (bits w 4 0, bits w 12 8, bits w 20 16)

/-- First slot of the ledger region, and the byte spans of its LEDGER, BACKLOG and CLIP parts (R60, R106; log entry 25). -/
def Inst.ledgerBase (i : Inst) : Nat := Slot.ledgerEnd - i.ledgerGiB.1 * 0x40000
def Inst.ledgerPart (i : Inst) : Nat × Nat := (i.ledgerBase * 4096, i.ledgerGiB.2.1 * 2 ^ 30)
def Inst.backlogPart (i : Inst) : Nat × Nat := (i.ledgerPart.1 + i.ledgerPart.2, i.ledgerGiB.2.2 * 2 ^ 30)
def Inst.clipPart (i : Inst) : Nat × Nat :=
  (i.backlogPart.1 + i.backlogPart.2, (i.ledgerGiB.1 - i.ledgerGiB.2.1 - i.ledgerGiB.2.2) * 2 ^ 30)

end Sys2Proof.Machine
end

