-- ==== Sys2Proof/Machine/Shadow.lean ====
section
/-! DEFINITION. The SHADOW encoding of a chunk into a sub-row, and its decoding (R112 to R114). -/

namespace Sys2Proof.Machine

/-- The exponent field, the top two fraction bits and the sign of an element of 4 or 2 bytes (R113). -/
def shadowFields (w v : Nat) : Nat × Nat × Bool :=
  if w = 4 then (bits v 30 23, bits v 22 21, v.testBit 31) else (bits v 14 7, bits v 6 5, v.testBit 15)

/-- The block header (R113). -/
def shadowHeader (w : Nat) (els : List Nat) : Nat :=
  let es := els.map (fun v => (shadowFields w v).1)
  if es.any (· == 255) then 255 else es.foldl max 0

/-- The element byte (R113). -/
def shadowByte (w header v : Nat) : Byte :=
  let (e, f2, s) := shadowFields w v
  let d := header - e
  BitVec.ofNat 8 ((if s then 128 else 0) + (if e = 0 ∨ d > 30 then 0 else 124 - 4 * d + f2))

/-- The decoded element (R113); a code whose exponent falls to 0 or below decodes to a zero (log entry 151). -/
def shadowDecode (w header : Nat) (b : Byte) : Nat :=
  let s := b.toNat / 128
  let m := b.toNat % 128
  let sgn := s * 2 ^ (8 * w - 1)
  if header = 255 then (if w = 4 then 0x7FC00000 else 0x7FC0)
  else if m = 0 then sgn
  else
    let d := 31 - m / 4
    if header ≤ d then sgn
    else if w = 4 then sgn + (header - d) * 2 ^ 23 + (2 * (m % 4) + 1) * 2 ^ 20
    else sgn + (header - d) * 2 ^ 7 + (2 * (m % 4) + 1) * 2 ^ 4

/-- Bytes of a sub-row, and the offsets of its headers and VERSION, for element width `w` (R114). -/
def subRowBytes (w : Nat) : Nat := if w = 4 then 1280 else 2304
def subRowHeaders (w : Nat) : Nat := if w = 4 then 1024 else 2048
def subRowVersion (w : Nat) : Nat := if w = 4 then 1040 else 2080

/-- The sub-row of a chunk at a version (R113, R114). -/
def shadowEncode (w version : Nat) (chunk : Bytes) : Bytes :=
  let blocks := piecesOf 64 ((piecesOf w chunk).map leNat)
  let hs := blocks.map (shadowHeader w)
  let codes := (blocks.zip hs).flatMap (fun x => x.1.map (shadowByte w x.2))
  let body := codes ++ hs.map (BitVec.ofNat 8) ++ natLe 4 version
  body ++ List.replicate (subRowBytes w - body.length) 0

/-- The chunk a sub-row decodes to, and its VERSION (R113, R115). -/
def shadowRestore (w : Nat) (sub : Bytes) : Bytes × Nat :=
  let codes := sub.take (4096 / w)
  let chunk := codes.mapIdx (fun i b => natLe w (shadowDecode w (field (subRowHeaders w + i / 64) 1 sub) b))
  (chunk.flatten, field (subRowVersion w) 4 sub)

/-- Where sub-row `n` of a SHADOW extent lies: the slot above SLOT_BASE and the byte in the slot (R114). -/
def subRowPlace (w n : Nat) : Nat × Nat := if w = 4 then (n / 3, 1280 * (n % 3)) else (n, 0)

end Sys2Proof.Machine
end

