-- ==== Sys2Proof/Machine/MapQ.lean ====
section
/-! DEFINITION. What a coding map says: classes, ranges, homes, slots, holders, stand-ins, partners, windows (R52 to R66,
R116, R124, R266, R268). -/

namespace Sys2Proof.Machine

/-- Whether two half-open intervals overlap. -/
def meetIv (a b : Nat × Nat) : Bool := decide (max a.1 b.1 < min a.2 b.2)

/-- Width in bytes of a storage format (R54). -/
def formatWidth : Nat → Nat
  | 0x00 => 4 | 0x10 => 4 | 0x01 => 2 | 0x11 => 2 | _ => 1

/-- The class record of a class (R65). -/
def MapImage.cls (m : MapImage) (c : Nat) : Option ClassRec := m.classes.find? (fun r => r.id = c)

/-- ELEMENT classes in ascending class, whatever the order of their records (R55, R154), and the MASTER class (R54). -/
def MapImage.elements (m : MapImage) : List ClassRec := sortBy (fun r => r.id) (m.classes.filter (fun r => r.kind = 0))
def MapImage.master (m : MapImage) : Nat := match m.classes.find? (fun r => r.role = 0 && r.kind = 0) with | some r => r.id | none => 0

/-- The range width W (R55). -/
def MapImage.width (m : MapImage) : Nat :=
  4096 / ((m.elements.map (fun r => formatWidth r.format)).foldl min 4)

/-- Chunks of a class per range; 1 for a BLOCK class (R55, R63). -/
def MapImage.perRange (m : MapImage) (c : Nat) : Nat :=
  match m.cls c with
  | some r => if r.kind = 0 then formatWidth r.format * m.width / 4096 else 1
  | none => 1

/-- First range of a layer and the number of its ranges (R56). -/
def MapImage.layerFirst (m : MapImage) (l : LayerRec) : Nat := l.firstParam / m.width
def MapImage.layerCount (m : MapImage) (l : LayerRec) : Nat := cdiv l.paramCount m.width

/-- The layer of a range (R56). -/
def MapImage.layerOf (m : MapImage) (q : Nat) : Option LayerRec :=
  m.layers.find? (fun l => decide (m.layerFirst l ≤ q) && decide (q < m.layerFirst l + m.layerCount l))
def MapImage.layer (m : MapImage) (id : Nat) : Option LayerRec := m.layers.find? (fun l => l.id = id)

/-- Lanes of a range within its layer (R56, R220). -/
def MapImage.validLanes (m : MapImage) (q : Nat) : Nat :=
  match m.layerOf q with
  | some l => min m.width (l.firstParam + l.paramCount - q * m.width)
  | none => 0

/-- The layer a chunk belongs to: by range, or by block (R56, R65). -/
def MapImage.chunkLayer (m : MapImage) (c : ChunkId) : Nat :=
  match m.cls c.cls with
  | some r =>
    if r.kind = 0 then ((m.layerOf c.q).map (fun l => l.id)).getD 0
    else ((m.blocks.find? (fun b => decide (b.cls = c.cls) && decide (b.first ≤ c.q) && decide (c.q < b.first + b.chunks))).map
      (fun b => b.layer)).getD 0
  | none => 0

/-- The class kind of a chunk: whether it is coded EXACT 0, SHADOW 1 or NONE 2. -/
def MapImage.protOf (m : MapImage) (c : ChunkId) : Nat := match m.cls c.cls with | some r => r.prot | none => 2

/-- The run that covers a range or block chunk of a class (R63). -/
def MapImage.runOf (m : MapImage) (c q : Nat) : Option RunRec :=
  m.runs.find? (fun r => decide (r.cls = c) && decide (r.firstRange ≤ q) && decide (q < r.firstRange + r.count))

/-- A home of the HOMES section. -/
def MapImage.homeAt (m : MapImage) (id : Nat) : Option Home := (m.homes[id]?).map (fun h => h.home)

/-- The stripe record of a stripe. -/
def MapImage.stripe (m : MapImage) (s : Nat) : Option StripeRec := m.stripes.find? (fun r => r.id = s)

/-- The home a range is homed at: that of its MASTER run (R57). -/
def MapImage.homeOf (m : MapImage) (q : Nat) : Option Home := (m.runOf m.master q).bind (fun r => m.homeAt r.homeId)

/-- The row of a chunk under a run (R63). -/
def rowOf (r : RunRec) (per q k : Nat) : Nat := r.firstRow + (q - r.firstRange) * per + k

/-- An extent at an instance holding a row of a fragment (R63). -/
def MapImage.extent (m : MapImage) (inst kind pos stripe row : Nat) : Option ExtentRec :=
  m.extents.find? (fun e => decide (e.inst = inst) && decide (e.kind = kind) && decide (e.position = pos) &&
    decide (e.stripe = stripe) && decide (e.firstRow ≤ row) && decide (row < e.firstRow + e.rowCount))

/-- The entry of a stripe for a fragment: role 0 data, 1 local parity, 2 global parity (index 1 up), 3 SHADOW at the
local parity holder, 4 ledger holder (R66). -/
def StripeRec.entry (s : StripeRec) (role index : Nat) : Option FragEntry :=
  let l := s.geom.colonies
  match role with
  | 0 => if index < s.geom.k then s.entries[index]? else none
  | 1 => if index < l then s.entries[s.geom.k + index]? else none
  | 3 => if index < l then s.entries[s.geom.k + index]? else none
  | 2 => if 1 ≤ index ∧ index ≤ s.geom.r then s.entries[s.geom.k + l + index - 1]? else none
  | _ => if index < l then s.entries[s.geom.k + l + s.geom.r + index]? else none

/-- The home of a fragment or of a ledger holder (R66). -/
def MapImage.fragHome (m : MapImage) (stripe role index : Nat) : Option Home :=
  (m.stripe stripe).bind (fun s => (s.entry role index).bind (fun e => m.homeAt e.homeId))

/-- The extent kind of a fragment role (R65). -/
def kindOfRole : Nat → Nat
  | 0 => 0 | 1 => 1 | 2 => 2 | _ => 3

/-- Where a chunk of an image lies at an instance: its slot (R63). -/
def MapImage.slotAt (m : MapImage) (ext : List ExtentRec) (self : Home) (c q k : Nat) : Option Nat :=
  match m.runOf c q with
  | none => none
  | some r =>
    let row := rowOf r (m.perRange c) q k
    if r.stripe = 0xFFFFFFFF then
      if m.homeAt r.homeId = some self then some (r.slotBase + (q - r.firstRange) * m.perRange c + k) else none
    else
      match ext.find? (fun e => decide (e.inst = self.idx) && decide (e.kind = 0) && decide (e.position = r.position) &&
          decide (e.stripe = r.stripe) && decide (e.firstRow ≤ row) && decide (row < e.firstRow + e.rowCount)) with
      | some e => some (e.slotBase + (row - e.firstRow))
      | none => none

/-- The chunks of a range: every ELEMENT class, ascending class and chunk (R55). -/
def MapImage.chunksOf (m : MapImage) (x q : Nat) : List ChunkId :=
  m.elements.flatMap (fun r => (List.range (m.perRange r.id)).map (fun k => { ctx := x, cls := r.id, q := q, k := k }))

/-- The fragment a chunk is: stripe, row and data position; none for a NONE class (R63). -/
def MapImage.fragOf (m : MapImage) (c q k : Nat) : Option FragId :=
  match m.runOf c q with
  | some r => if r.stripe = 0xFFFFFFFF then none
              else some { stripe := r.stripe, row := rowOf r (m.perRange c) q k, role := 0, index := r.position }
  | none => none

/-- The chunk at a row and data position of a stripe (R63), with its class. -/
def MapImage.chunkAt (m : MapImage) (x stripe row pos : Nat) : Option ChunkId :=
  m.runs.findSome? (fun r =>
    let per := m.perRange r.cls
    if r.stripe = stripe ∧ r.position = pos ∧ r.firstRow ≤ row ∧ row < r.firstRow + r.count * per ∧ 0 < per then
      some { ctx := x, cls := r.cls, q := r.firstRange + (row - r.firstRow) / per, k := (row - r.firstRow) % per }
    else none)

/-- The NONE chunk of a class that an image gives a home at a slot (R63; log entry 37). -/
def MapImage.noneAt (m : MapImage) (x : Nat) (self : Home) (cls slot : Nat) : Option ChunkId :=
  m.runs.findSome? (fun r =>
    let per := m.perRange r.cls
    if r.stripe = 0xFFFFFFFF ∧ r.cls = cls ∧ m.homeAt r.homeId = some self ∧ r.slotBase ≤ slot ∧ slot < r.slotBase + r.count * per then
      some { ctx := x, cls := cls, q := r.firstRange + (slot - r.slotBase) / per, k := (slot - r.slotBase) % per }
    else none)

/-- Whether every class of a range is NONE (R19). -/
def MapImage.uncodedRange (m : MapImage) (q : Nat) : Bool :=
  m.elements.all (fun r => match m.runOf r.id q with | some u => u.stripe == 0xFFFFFFFF | none => true)

/-- The stripe and colony of a range's MASTER chunk (R124). -/
def MapImage.masterColony (m : MapImage) (q : Nat) : Option (StripeRec × Nat) :=
  match m.runOf m.master q with
  | some r => (m.stripe r.stripe).map (fun s => (s, s.geom.colonyOf r.position))
  | none => none

/-- The ledger holder of a range (R19, R66). -/
def MapImage.ledgerHolder (m : MapImage) (q : Nat) : Option Home :=
  (m.masterColony q).bind (fun p => m.fragHome p.1.id 4 p.2)

/-- Whether a home is in a lost set. -/
def isLost (lost : List LostHome) (h : Home) : Bool := lost.any (fun l => l.home = h)

/-- The stand-in of a colony (R124). -/
def MapImage.standIn (m : MapImage) (lost : List LostHome) (s : StripeRec) (col : Nat) : Option Home :=
  match m.fragHome s.id 1 col with
  | some h =>
    if !isLost lost h then some h
    else (s.geom.members col).findSome? (fun i =>
      match m.fragHome s.id 0 i with
      | some d => if isLost lost d then none else some d
      | none => none)
  | none => none

/-- The homes of a colony: data members, local parity holder, ledger holder (R116). -/
def MapImage.colonyHomes (m : MapImage) (s : StripeRec) (col : Nat) : List Home :=
  (((s.geom.members col).map (fun i => m.fragHome s.id 0 i)) ++ [m.fragHome s.id 1 col, m.fragHome s.id 4 col]).filterMap id

/-- Homes that share a colony with a home, itself left out (R116). -/
def MapImage.partners (m : MapImage) (self : Home) : List Home :=
  (m.stripes.flatMap (fun s => (List.range s.geom.colonies).flatMap (fun c =>
    let hs := m.colonyHomes s c
    if hs.contains self then hs.filter (· ≠ self) else []))).eraseDups

/-- The stripe peers of a home: every other home of a stripe in which it has an entry (R71). -/
def MapImage.peers (m : MapImage) (self : Home) : List Home :=
  (m.stripes.flatMap (fun s =>
    let hs := s.entries.filterMap (fun e => m.homeAt e.homeId)
    if hs.contains self then hs.filter (· ≠ self) else [])).eraseDups

/-- Whether an image still names a home (R119). -/
def MapImage.names (m : MapImage) (h : Home) : Bool :=
  m.stripes.any (fun s => s.entries.any (fun e => m.homeAt e.homeId == some h)) ||
    m.runs.any (fun r => m.homeAt r.homeId == some h)

/-- The positions of a stripe that are in a lost set (R81). -/
def MapImage.lostPositions (m : MapImage) (lost : List LostHome) (s : StripeRec) : List Pos :=
  let at_ (role index : Nat) : Bool := match m.fragHome s.id role index with | some h => isLost lost h | none => false
  ((List.range s.geom.k).filter (at_ 0)).map Pos.data ++ ((List.range s.geom.colonies).filter (at_ 1)).map Pos.local_ ++
    (((List.range s.geom.r).map (· + 1)).filter (at_ 2)).map Pos.global

/-- Role and index of a position. -/
def Pos.role : Pos → Nat × Nat
  | .data i => (0, i)
  | .local_ c => (1, c)
  | .global j => (2, j)

/-- The members contributing to a parity, ascending (R96). -/
def contributors (g : Geom) (role index : Nat) : List Nat :=
  if role = 2 then List.range g.k else g.members index

/-- Rows per vector slot (R97). -/
def vecPerSlot (entries : Nat) : Nat := 256 / max entries 1

/-- The element widths of the SHADOW chunks that members of a colony have in `n` rows of a stripe (R114). -/
def MapImage.shadowWidths (m : MapImage) (stripe col first n : Nat) : List Nat :=
  match m.stripe stripe with
  | none => []
  | some s => m.runs.filterMap (fun r => (m.cls r.cls).bind (fun c =>
      if r.stripe = stripe ∧ c.prot = 1 ∧ s.geom.colonyOf r.position = col ∧
          meetIv (r.firstRow, r.firstRow + r.count * m.perRange r.cls) (first, first + n) then some (formatWidth c.format) else none))

/-- Slots an extent occupies: sub-rows of 4-byte elements lie three to a slot, those of 2-byte elements one (R97, R114;
log entry 22). -/
def MapImage.extentSlots (m : MapImage) (e : ExtentRec) : Nat :=
  let g := match m.stripe e.stripe with | some s => s.geom | none => { k := 1, g := 1, r := 0 }
  match e.kind with
  | 0 => e.rowCount
  | 1 => e.rowCount + cdiv e.rowCount (vecPerSlot (contributors g 1 e.position).length)
  | 2 => e.rowCount + cdiv e.rowCount (vecPerSlot g.k)
  | _ =>
    if (m.shadowWidths e.stripe e.position e.firstRow e.rowCount).contains 2 then e.rowCount else cdiv e.rowCount 3

/-- The slots an image uses at an instance: extents and NONE runs, as (first, count) (R67 NO_SPACE, R73). -/
def MapImage.slotSpans (m : MapImage) (self : Home) : List (Nat × Nat) :=
  (m.extents.filter (fun e => e.inst = self.idx)).map (fun e => (e.slotBase, m.extentSlots e)) ++
    m.runs.filterMap (fun r => if r.stripe = 0xFFFFFFFF ∧ m.homeAt r.homeId = some self then
      some (r.slotBase, r.count * m.perRange r.cls) else none)

/-- Window check of R266: none of the windows permits the operation. -/
def MapImage.windowOk (m : MapImage) (dst : Home) (op : Nat) (rowChecked : Option (Nat × Nat)) : Bool :=
  m.windows.any (fun w => m.homeAt w.homeId == some dst && w.ops.testBit op &&
    (match rowChecked with
     | some (s, r) => decide (w.stripe = s) && decide (w.firstRow ≤ r) && decide (r < w.firstRow + w.rowCount)
     | none => true))

/-- The CTX_TAG of a seed (R256). -/
def ctxTagOf (seed : Bytes) : Nat :=
  (field 0 4 seed ^^^ field 4 4 seed ^^^ field 8 4 seed ^^^ field 12 4 seed) % 2 ^ 16

/-- The CTX_TAG an operation of a context leaves with (R256): 0 where the context has no image (log entry 48). -/
def Inst.ctxTag (i : Inst) (x : Nat) : Nat := match (i.ctx x).map.image with | some m => ctxTagOf m.head.seed | none => 0

/-- The blocks of a class for a layer in ascending FIRST_BCHUNK (R192). -/
def MapImage.layerBlocks (m : MapImage) (layer cls : Nat) : List BlockRec :=
  sortBy (fun b => b.first) (m.blocks.filter (fun b => decide (b.layer = layer) && decide (b.cls = cls)))

end Sys2Proof.Machine
end

