-- ==== Sys2Proof/Machine/ArrSched.lean ====
section
/-! DEFINITION. The order of work on the array (R46, R199 to R201): what wants the array, which work has it, which is parked on the other
bank, and which waits. -/

namespace Sys2Proof.Machine

/-- The window of a cell on a bank, its GF accumulator, and its operand registers (R199; log entry 141). -/
def ArrCells.bank (n : Nat) (c : ArrCells) : Nat := if n = 0 then c.bank0 else c.bank1
def ArrCells.window (n cell : Nat) (c : ArrCells) : BitVec 80 := if c.bank n = 0 then 0 else Config.cellWindow (c.bank n) cell
def ArrCells.gf (n cell : Nat) (c : ArrCells) : BitVec 8 := if c.bank n = 0 then 0 else Config.cellGf (c.bank n) cell
def ArrCells.operandPair (cell : Nat) (c : ArrCells) : BitVec 18 := if c.operands = 0 then 0 else Config.cellOperands c.operands cell

/-- A job begins on the active bank: it fills that bank and the operand registers, and leaves the other bank alone (R200). -/
def ArrCells.enter (c : ArrCells) : ArrCells :=
  let n := c.filled + 1
  if c.active = 0 then { c with bank0 := n, operands := n, filled := n } else { c with bank1 := n, operands := n, filled := n }

/-- The banks swap (R200). -/
def ArrCells.swap (c : ArrCells) : ArrCells := { c with active := 1 - c.active }

/-- The trigger of the self-test that runs: 1 start-up or return, 2 image confirmation, 3 margin sample, 0 none (R217, R388). -/
def Inst.testTrigger (i : Inst) : Nat :=
  if i.pw.state = .starting ∧ i.pw.start = .selfTest then 1
  else if i.pw.state = .restoring ∧ i.pw.offPhase = .selfTest then 1
  else if i.pw.state ≠ .active then 0
  else if i.pw.trialTest then 2
  else if i.arr.sampling && !i.arr.restart then 3
  else 0

/-- A row whose reads have all been answered, and which the array now works on (R82, R201; log entry 142). -/
def RowJob.onArray (r : RowJob) : Bool :=
  r.target.role != 3 && r.done.isNone && r.failed.isNone && r.asked.isEmpty && !r.got.isEmpty

/-- The array class of a decode, of a repair or a check (R201, R243, R252); a SHADOW chunk is repaired without the array (R245). -/
def JobKind.arrClass : JobKind → Option Nat
  | .standin _ _ => some 1
  | .chunkRepair _ _ scrub => some (if scrub then 3 else 1)
  | .rowRepair _ _ check => some (if check then 3 else 1)
  | .shadowRepair _ _ => none

/-- A job's array work, with its class. -/
def Job.arrWork (j : Job) : Option (ArrWork × Nat) :=
  if !j.queued && j.phase == 0 && j.rows.any RowJob.onArray then j.kind.arrClass.map (fun n => (.decode j.id, n)) else none

/-- Everything that wants the array, with its class (R201, R352). -/
def Inst.arrWork (i : Inst) : List (ArrWork × Nat) :=
  i.flt.jobs.filterMap Job.arrWork ++
  i.opt.flights.filterMap (fun f => f.tile.map (fun t => (.tile f.ctx f.layer t f.step, 2))) ++
  (i.opt.refreshes.filter (fun r => !r.done)).map (fun r =>
    (.refresh r.ctx r.layer r.tile r.due, if i.arr.late.contains (r.ctx, r.layer, r.tile) then 2 else 4)) ++
  (if i.testTrigger = 0 then [] else [(.selfTest, 4)]) ++
  (i.arr.jobs.filter (fun j => j.2.work != 0)).map (fun j => (.submitted j.1 j.2.serial, 4))

/-- Work put on the active bank. -/
def ArrSt.start (w : ArrWork) (a : ArrSt) : ArrSt :=
  { a with run := some w, queue := a.queue.filter (· ≠ w), cells := a.cells.enter }

/-- What waits goes on the array (R200, R201): class 1 parks any other work, and goes first at a job boundary; then the parked work
resumes; then the lowest class starts, in submission order. -/
def ArrSt.dispatch (cls : ArrWork → Nat) (a : ArrSt) : ArrSt :=
  match a.run, a.queue.find? (fun w => cls w == 1), a.parked with
  | some r, some d, none =>
    if cls r = 1 then a else ArrSt.start d { a with run := none, parked := some r, cells := a.cells.swap }
  | some _, _, _ => a
  | none, some d, _ => a.start d
  | none, none, some p => { a with run := some p, parked := none, cells := a.cells.swap }
  | none, none, none =>
    match [2, 3, 4].findSome? (fun n => a.queue.find? (fun w => cls w == n)) with
    | some w => a.start w
    | none => a

/-- A submitted job that has got the array is RUNNING (R389). -/
def ArrSt.running (a : ArrSt) : ArrSt :=
  { a with jobs := a.jobs.map (fun j => if j.2.work = 1 ∧ a.run = some (.submitted j.1 j.2.serial) then
      (j.1, { j.2 with work := 2, state := if j.2.state = 1 then 2 else j.2.state }) else j) }

/-- The array once it is known what wants it: work that has ended leaves it, new work queues, and what may go on it does. -/
def ArrSt.turn (ws : List (ArrWork × Nat)) (a : ArrSt) : ArrSt :=
  if ws.isEmpty && a.run.isNone && a.parked.isNone && a.queue.isEmpty then a
  else
    let cls := fun w => ((ws.find? (fun p => p.1 == w)).map Prod.snd).getD 4
    let live := fun w => ws.any (fun p => p.1 == w)
    let b : ArrSt := { a with run := a.run.filter live, parked := a.parked.filter live, queue := a.queue.filter live }
    let new := (ws.map Prod.fst).filter (fun w => !(b.queue.contains w || b.run == some w || b.parked == some w))
    (ArrSt.dispatch cls { b with queue := b.queue ++ new }).running

/-- The array of an instance after a command. -/
def Inst.arrange (i : Inst) : Inst := { i with arr := i.arr.turn i.arrWork }

/-- Work that waits for the array or is parked off it does not end (R200, R201). -/
def Inst.arrHolds (w : ArrWork) (i : Inst) : Bool := i.arr.queue.contains w || i.arr.parked == some w

end Sys2Proof.Machine
end

