-- ==== Sys2Proof/Machine/Ops.lean ====
section
/-! DEFINITION. How a command reaches the die and its instances: every meaning is one of these two shapes over a function of
the die and its instances, so that no meaning touches the queue or the supply. -/

namespace Sys2Proof.Machine

/-- One cycle of the AON clock: the time base counts while the die is supplied and its clock runs (R36, R321). -/
def State.tick (s : State) : State :=
  match s.supply with
  | .on => { s with die := { s.die with time := (s.die.time + 1) % 2 ^ 64 } }
  | _ => s

/-- An instance of the block. -/
def State.inst (s : State) (i : InstId) : Inst := s.insts[i]

/-- A meaning over the die and its instances. A stopped engine faults (R321); an unpowered die has no state a command could
change (R342); a running one makes the change. -/
def runDie (f : Die → Vector Inst 8 → Die × Vector Inst 8) (s : State) : Host.Outcome State Fault Refusal :=
  match s.supply with
  | .stopped => .fault .engineStopped
  | .off => .next s
  | .on =>
    let r := f s.die s.insts
    .next { s with die := r.1, insts := r.2 }

/-- What an instance sees of the die. -/
def Die.viewFor (d : Die) (v : Vector Inst 8) (idx : Nat) : DieView :=
  { idx := idx, node := d.node, time := d.time, detLock := d.detLock, testLock := d.ctl.locks.contains 3,
    coldPriv := d.coldPriv, bases := v.toList.map Inst.ledgerBase }

/-- LIFE_READY on the die ring when an instance has staged a new life record (R354, R383). -/
def Die.lifeNotice (idx : Nat) (a b : Inst) (d : Die) : Die :=
  if b.telem.stagedSt.seq = a.telem.stagedSt.seq then d
  else d.event 0x0101 [(20, 1, idx), (24, 4, b.telem.stagedSt.seq)]

/-- A change of one instance, seen from the die; its array then turns to what it has now to do (R201). -/
def onInst (k : InstId) (f : Inst → Inst) (d : Die) (v : Vector Inst 8) : Die × Vector Inst 8 :=
  let a := v[k]
  let b := (f { a with view := d.viewFor v k.val }).arrange
  (d.lifeNotice k.val a b, v.set k b)

/-- A change of every instance, in ascending order. -/
def onAll (f : Inst → Inst) (d : Die) (v : Vector Inst 8) : Die × Vector Inst 8 :=
  (List.finRange 8).foldl (fun p k => onInst k f p.1 p.2) (d, v)

/-- A command to one instance. -/
def runInst (k : InstId) (f : Inst → Inst) (s : State) : Host.Outcome State Fault Refusal := runDie (onInst k f) s

end Sys2Proof.Machine
end

