-- ==== Sys2Proof/Machine/Stack.lean ====
section
/-! DEFINITION. The managed region: lines under their code, the valid map, chunk records, chunks, parity rows and version
vectors (R58, R60 to R62, R96, R97, R238 to R242). -/

namespace Sys2Proof.Machine

/-- The region code of a slot (R391). -/
def Inst.regionOf (i : Inst) (slot : Nat) : Nat :=
  if Slot.chunkTable ≤ slot then 4
  else if Slot.mapRegion ≤ slot then 3
  else if Slot.spill ≤ slot then 2
  else if i.ledgerBase ≤ slot then 1
  else 0

/-- The 68 stored bytes of a line, numbered 64 to a slot (R238). -/
def MemSt.line (m : MemSt) (ln : Nat) : Bytes := m.stack.readN (64 * ln) 64 ++ m.check.readN (4 * ln) 4

/-- 68 bytes stored as given (R253). -/
def MemSt.putRaw (ln : Nat) (b : Bytes) (m : MemSt) : MemSt :=
  { m with stack := m.stack.write (64 * ln) (b.take 64), check := m.check.write (4 * ln) (b.drop 64) }

/-- A whole-line write with fresh check bytes (R237, R238). -/
def MemSt.putLine (ln : Nat) (d : Bytes) (m : MemSt) : MemSt := m.putRaw ln (d ++ rsCheck d)

/-- Whole lines written one after another. -/
def MemSt.putLines : Nat → List Bytes → MemSt → MemSt
  | _, [], m => m
  | ln, d :: t, m => MemSt.putLines (ln + 1) t (m.putLine ln d)

/-- The staging line a chunk or a copy lies in. -/
def ChunkId.staged (c : ChunkId) : StageUse := .chunk c.ctx c.cls c.q c.k
def ChunkId.copied (c : ChunkId) : StageUse := .copy c.ctx c.cls c.q c.k

/-- The lines of something in staging that are marked poisoned (R139). -/
def Inst.poisonedLines (u : StageUse) (i : Inst) : List Nat := (i.mem.stagePoison.filter (fun l => l.use = u)).map (fun l => l.line)

/-- The poison flags of the granules of something in staging (R139). -/
def Inst.stagedFlags (u : StageUse) (i : Inst) : Nat := ((i.poisonedLines u).map (· / 4)).foldl (fun a g => a ||| 2 ^ g) 0

/-- Marks of lines written anew (R139). -/
def Inst.unmark (use : StageUse) (i : Inst) : Inst :=
  { i with mem := { i.mem with stagePoison := i.mem.stagePoison.filter (fun l => l.use ≠ use) } }

/-- Whether anything of what lies in staging is marked poisoned (R139). -/
def Inst.stagedPoison (u : StageUse) (i : Inst) : Bool := !(i.poisonedLines u).isEmpty

/-- The marks of a chunk under update carried on to the delta formed from it (R139). -/
def Inst.carryMarks (c : ChunkId) (record : Nat) (i : Inst) : Inst :=
  let l := i.poisonedLines c.staged
  if l.isEmpty then i
  else { i with mem := { i.mem with stagePoison := i.mem.stagePoison ++ l.map (fun n => { use := .delta record, line := n }) } }

/-- An upset (R62, R238, R247): what it does to the stored bytes, to the staging line, or to the instance. On-chip memories are without
power in OFF. -/
def Inst.upset (i : Inst) (u : Upset) : Inst :=
  match u with
  | .line slot line pos flip =>
    let ln := slot * 64 + line
    let b := i.mem.line ln
    { i with mem := i.mem.putRaw ln (setAt pos (b.getD pos 0 ^^^ flip) b) }
  | _ =>
    if i.pw.state = .off then i
    else match u with
      | .corrected => i.count Cnt.sramCe 1
      | .staging l =>
        ({ i with mem := { i.mem with stagePoison := if i.mem.stagePoison.contains l then i.mem.stagePoison else i.mem.stagePoison ++ [l] } }).count
          Cnt.sramUe 1
      | .sram => i.selfFault 0x13 0
      | .mapWord w => { i with mem := { i.mem with parity := insertNat w i.mem.parity } }
      | _ => i

def Inst.upsets (us : List Upset) (i : Inst) : Inst := us.foldl Inst.upset i

/-- A correction entered in the table of R241. -/
def Inst.noteCorrection (scrub : Bool) (ln : Nat) (i : Inst) : Inst :=
  let slot := ln / 64
  let line := ln % 64
  let again := i.ecc.corr.any (fun c => decide (c.1 = slot) && decide (c.2.1 = line))
  let rest := i.ecc.corr.filter (fun c => !(decide (c.1 = slot) && decide (c.2.1 = line)))
  let j := ({ i with ecc := { i.ecc with corr := ((slot, line, again) :: rest).take 64 } }).count
    (if scrub then Cnt.eccCeScrub else Cnt.eccCeDemand) 1
  let k := { j with memb := { j.memb with eccWindow := (j.memb.eccWindow.headD 0 + 1) :: j.memb.eccWindow.drop 1 } }
  if again then (k.count Cnt.eccRepeat 1).event 0x1C02 none [(20, 1, line), (24, 4, slot)] else k

/-- UNCORRECTABLE verdicts of the last second (R391). -/
def Inst.ueWindow (i : Inst) : Nat := (i.ecc.ueTimes.filter (fun t => decide (i.view.time < t + aonHz))).length

/-- The fault of R242 when the verdicts of the last second exceed the limit. -/
def Inst.checkUeRate (detail : Nat) (i : Inst) : Inst :=
  if i.reg 0x1C 0x100 0x40 < i.ueWindow then i.selfFault 0x11 detail else i

/-- The byte positions of a failed line, 0xFF where the syndromes do not give them (R240, R391). -/
def uePositions (b : Bytes) : Nat × Nat := (rsTwo b).getD (0xFF, 0xFF)

/-- An UNCORRECTABLE verdict recorded: counted, logged, and a fault of the instance where R242 says so. -/
def Inst.noteUncorrectable (ln : Nat) (b : Bytes) (i : Inst) : Inst :=
  let p := uePositions b
  let e : EccSt := { i.ecc with
    ueTimes := i.view.time :: i.ecc.ueTimes.filter (fun t => decide (i.view.time < t + aonHz)),
    lastUe := some (ln / 64, ln % 64), lastInfo := i.regionOf (ln / 64) + 2 ^ 8 * p.1 + 2 ^ 16 * p.2 }
  ((({ i with ecc := e } : Inst).count Cnt.eccUe 1).event 0x1C01 none
    [(20, 1, ln % 64), (21, 1, i.regionOf (ln / 64)), (22, 1, p.1), (23, 1, p.2), (24, 4, ln / 64)]).checkUeRate
      (ln / 64 + 2 ^ 32 * (ln % 64))

/-- One line read through the ECC unit (R239 to R241): none where the verdict is UNCORRECTABLE. -/
def Inst.readLine (scrub : Bool) (ln : Nat) (i : Inst) : Inst × Option Bytes :=
  let b := i.mem.line ln
  match rsVerdict b with
  | .clean => (i, some (b.take 64))
  | .corrected p e =>
    let c := setAt p (b.getD p 0 ^^^ e) b
    (({ i with mem := i.mem.putRaw ln c }).noteCorrection scrub ln, some (c.take 64))
  | .uncorrectable => (i.noteUncorrectable ln b, none)

/-- Consecutive lines read. -/
def Inst.readLines (scrub : Bool) : Nat → Nat → Inst → Inst × List (Option Bytes)
  | _, 0, i => (i, [])
  | ln, n + 1, i =>
    let a := i.readLine scrub ln
    let b := Inst.readLines scrub (ln + 1) n a.1
    (b.1, a.2 :: b.2)

/-- The lines that failed, and the bytes with failed lines as zeros. -/
def failedLines (ls : List (Option Bytes)) : List Nat :=
  (List.range ls.length).filter (fun k => (ls.getD k none).isNone)
def joinLines (ls : List (Option Bytes)) : Bytes := ls.flatMap (fun l => l.getD (List.replicate 64 0))

/-- The word parity of the valid map checked for a slot: a failed word is taken and rewritten as all set, counted and logged
(R62). The code of its log entry the spec does not give: a free value (log entry 9). -/
def Inst.mapWord (slot : Nat) (i : Inst) : Inst :=
  let w := slot / 64
  if i.mem.parity.contains w then
    let f := ({ i with mem := { i.mem with parity := i.mem.parity.filter (· ≠ w),
                                           valid := (List.range 64).foldl (fun v k => setBit (64 * w + k) v) i.mem.valid } }).freshValue
    (f.1.count Cnt.validMapParity 1).event (f.2.toNat % 2 ^ 16) none [(24, 4, w)]
  else i

/-- Whether a slot has been written (R61). -/
def Inst.isValid (i : Inst) (slot : Nat) : Bool := i.mem.valid.contains slot

/-- Where a chunk record lies: line and byte within it (R58, R60). -/
def recLine (slot : Nat) : Nat := Slot.chunkTable * 64 + slot / 4
def recByte (slot : Nat) : Nat := 16 * (slot % 4)

/-- A record as bytes and back (R58). -/
def recBytes (r : ChunkRec) : Bytes := packed 16 [(0, 4, r.version), (4, 8, r.digest.toNat), (12, 1, r.attr)]
def recOf (b : Bytes) : ChunkRec :=
  { version := field 0 4 b, digest := BitVec.ofNat 64 (field 4 8 b), attr := field 12 1 b }

/-- The record an unwritten slot reads as (R61): the digest of zeros is zero (R234). -/
def ChunkRec.zero : ChunkRec := { version := 0, digest := 0, attr := 0 }

/-- Attribute bits (R58). -/
def ChunkRec.poison (r : ChunkRec) : Bool := r.attr.testBit 0
def ChunkRec.recon (r : ChunkRec) : Bool := r.attr.testBit 1
def ChunkRec.lost (r : ChunkRec) : Bool := r.attr.testBit 2
def ChunkRec.approx (r : ChunkRec) : Bool := r.attr.testBit 3

/-- A metadata line read: an UNCORRECTABLE verdict faults the instance (R242) and reads as zeros. -/
def Inst.metaLine (scrub : Bool) (ln : Nat) (i : Inst) : Inst × Bytes :=
  let r := i.readLine scrub ln
  match r.2 with
  | some b => (r.1, b)
  | none => (r.1.selfFault 0x10 (ln / 64 + 2 ^ 32 * (ln % 64)), List.replicate 64 0)

/-- A narrow write: the read-modify-write of its line (R237). A line with an UNCORRECTABLE verdict keeps its contents, and the
instance faults (R242). -/
def Inst.patchLine (ln off : Nat) (b : Bytes) (i : Inst) : Inst :=
  let r := i.readLine false ln
  match r.2 with
  | some d => { r.1 with mem := r.1.mem.putLine ln (d.take off ++ b ++ d.drop (off + b.length)) }
  | none => r.1.selfFault 0x10 (ln / 64 + 2 ^ 32 * (ln % 64))

/-- The record of a slot, as the scrubber or any other reader reads it (R58, R61, R241). -/
def Inst.readRecBy (scrub : Bool) (slot : Nat) (i : Inst) : Inst × ChunkRec :=
  let j := i.mapWord slot
  if j.isValid slot then
    let r := j.metaLine scrub (recLine slot)
    (r.1, recOf (slice (recByte slot) 16 r.2))
  else (j, ChunkRec.zero)
def Inst.readRec (slot : Nat) (i : Inst) : Inst × ChunkRec := i.readRecBy false slot

/-- A slot's first write sets its bit, its other bytes and its record reading as zeros (R61; log entry 23). -/
def Inst.openSlot (slot : Nat) (i : Inst) : Inst :=
  let j := i.mapWord slot
  if j.isValid slot then j
  else
    let k := { j with mem := (j.mem.putLines (slot * 64) (List.replicate 64 (List.replicate 64 0))) }
    ({ k with mem := { k.mem with valid := setBit slot k.mem.valid } }).patchLine (recLine slot) (recByte slot)
      (List.replicate 16 0)

/-- A record written alone (R61). -/
def Inst.writeRec (slot : Nat) (r : ChunkRec) (i : Inst) : Inst :=
  (i.openSlot slot).patchLine (recLine slot) (recByte slot) (recBytes r)

/-- An attribute added to a chunk's record. -/
def Inst.setAttr (slot attr : Nat) (i : Inst) : Inst :=
  let r := i.readRec slot
  r.1.writeRec slot { r.2 with attr := r.2.attr ||| attr }

/-- A chunk and its record written together (R27, R58). -/
def Inst.writeChunk (slot : Nat) (b : Bytes) (r : ChunkRec) (i : Inst) : Inst :=
  let j := i.mapWord slot
  let k := { j with mem := { (j.mem.putLines (slot * 64) (piecesOf 64 b)) with valid := setBit slot j.mem.valid } }
  k.patchLine (recLine slot) (recByte slot) (recBytes r)

/-- The lines of a slot read by a reader other than the scrubber; an unwritten slot makes no access (R61). -/
def Inst.readSlot (slot : Nat) (i : Inst) : Inst × List (Option Bytes) :=
  let j := i.mapWord slot
  if j.isValid slot then j.readLines false (slot * 64) 64 else (j, List.replicate 64 (some (List.replicate 64 0)))

/-- Granules of a slot read. -/
def Inst.readGranules (slot : Nat) (gs : List Nat) (i : Inst) : Inst × List (Option Bytes) :=
  let j := i.mapWord slot
  if j.isValid slot then
    gs.foldl (fun (a : Inst × List (Option Bytes)) g =>
      let r := a.1.readLines false (slot * 64 + 4 * g) 4
      (r.1, a.2 ++ [if (failedLines r.2).isEmpty then some (joinLines r.2) else none])) (j, [])
  else (j, gs.map (fun _ => some (List.replicate 256 0)))

/-- The lines of some granules of a slot whose verdict is UNCORRECTABLE (R239), by their number in the slot. -/
def MemSt.badLines (slot : Nat) (gs : List Nat) (m : MemSt) : List Nat :=
  (gs.flatMap (fun g => (List.range 4).map (fun k => 4 * g + k))).filter (fun l => rsVerdict (m.line (64 * slot + l)) == .uncorrectable)

/-- A change of one granule taken into the DIGEST of its slot's record, which is linear in the bytes (R58, R251). -/
def Inst.digestXor (slot g : Nat) (delta : Bytes) (i : Inst) : Inst :=
  if delta.all (· = 0) then i
  else
    let r := i.readRec slot
    r.1.writeRec slot { r.2 with digest := r.2.digest ^^^ crc64 (delta ++ List.replicate (256 * (15 - g)) 0) }

/-- The DIGEST of a slot's record formed from its stored bytes (R58). -/
def Inst.digestStored (slot : Nat) (i : Inst) : Inst :=
  let r := i.readRec slot
  r.1.writeRec slot { r.2 with digest := crc64 (r.1.mem.stack.readN (4096 * slot) 4096) }

/-- A granule of a slot written whole. -/
def Inst.writeGranule (slot g : Nat) (b : Bytes) (i : Inst) : Inst :=
  let j := i.openSlot slot
  { j with mem := j.mem.putLines (slot * 64 + 4 * g) (piecesOf 64 b) }

/-- A vector entry as bytes and back (R96). -/
def vecBytes (e : VecEntry) : Bytes :=
  packed 16 [(0, 4, e.version), (4, 8, e.digest.toNat), (12, 1, b2n e.committed + 2 * b2n e.reconstructed)]
def vecOf (b : Bytes) : VecEntry :=
  { version := field 0 4 b, digest := BitVec.ofNat 64 (field 4 8 b), committed := bit (field 12 1 b) 0,
    reconstructed := bit (field 12 1 b) 1 }

/-- Where a row of a held fragment lies: chunk slot, and for a parity the vector slot and the byte of its first entry
(R63, R97). -/
structure RowPlace where
  slot    : Nat
  vecSlot : Nat
  vecByte : Nat
  entries : Nat
  deriving DecidableEq, Repr

/-- The place of a parity or shadow row that an image gives an instance to hold (R63, R97, R114). -/
def MapImage.rowPlace (m : MapImage) (inst : Nat) (f : FragId) : Option RowPlace :=
  match m.extent inst (kindOfRole f.role) f.index f.stripe f.row, m.stripe f.stripe with
  | some e, some s =>
    let n := f.row - e.firstRow
    if f.role = 3 then some { slot := e.slotBase + n, vecSlot := 0, vecByte := 0, entries := 0 }
    else
      let k := (contributors s.geom f.role f.index).length
      let per := vecPerSlot k
      some { slot := e.slotBase + n, vecSlot := e.slotBase + e.rowCount + n / per, vecByte := 16 * k * (n % per),
             entries := k }
  | _, _ => none

/-- One vector entry read (R96, R97). -/
def Inst.readVecAtBy (scrub : Bool) (p : RowPlace) (n : Nat) (i : Inst) : Inst × VecEntry :=
  let j := i.mapWord p.vecSlot
  if j.isValid p.vecSlot then
    let a := p.vecByte + 16 * n
    let r := j.metaLine scrub (p.vecSlot * 64 + a / 64)
    (r.1, vecOf (slice (a % 64) 16 r.2))
  else (j, vecOf (List.replicate 16 0))
def Inst.readVecAt (p : RowPlace) (n : Nat) (i : Inst) : Inst × VecEntry := i.readVecAtBy false p n

/-- One vector entry written. -/
def Inst.writeVecAt (p : RowPlace) (n : Nat) (e : VecEntry) (i : Inst) : Inst :=
  let a := p.vecByte + 16 * n
  (i.openSlot p.vecSlot).patchLine (p.vecSlot * 64 + a / 64) (a % 64) (vecBytes e)

/-- The whole vector of a row. -/
def Inst.readVecBy (scrub : Bool) (p : RowPlace) (i : Inst) : Inst × List VecEntry :=
  (List.range p.entries).foldl (fun (a : Inst × List VecEntry) n =>
    let r := a.1.readVecAtBy scrub p n
    (r.1, a.2 ++ [r.2])) (i, [])
def Inst.readVec (p : RowPlace) (i : Inst) : Inst × List VecEntry := i.readVecBy false p

/-- Valid-map bits cleared (R61). -/
def Inst.clearSlots (first n : Nat) (i : Inst) : Inst :=
  { i with mem := { i.mem with valid := clearBits first n i.mem.valid,
                               parity := i.mem.parity } }

/-- Stored lines rewritten with fresh contents: of the structured regions only the error pattern is kept, and a rewrite
clears it (log entry 26). -/
def Inst.freshLines (addr n : Nat) (i : Inst) : Inst :=
  let first := addr / 64
  let cnt := cdiv (addr + n) 64 - first
  { i with mem := { i.mem with stack := i.mem.stack.erase (64 * first) (64 * cnt), check := i.mem.check.erase (4 * first) (4 * cnt) } }

/-- The error patterns of a span that lie above the zero codeword: only listed lines are read (log entry 26). -/
def Inst.dirtyLines (i : Inst) (addr n : Nat) : List Nat :=
  ((i.mem.stack.keysIn addr n).map (· / 64) ++
    (i.mem.check.keysIn (addr / 16) (cdiv (addr + n) 16 - addr / 16)).map (· / 4)).eraseDups

/-- A structured span read: whether every line read CLEAN or CORRECTED. -/
def Inst.readSpan (scrub : Bool) (addr n : Nat) (i : Inst) : Inst × Bool :=
  (i.dirtyLines addr n).foldl (fun (a : Inst × Bool) ln =>
    let r := a.1.readLine scrub ln
    (r.1, a.2 && r.2.isSome)) (i, true)

/-- First fit of `n` bytes in one span of a part whose used spans are given, in ascending address (R107, R104; log entry 150). -/
def firstFit (part : Nat × Nat) (used : List (Nat × Nat)) (n : Nat) : Option Nat :=
  let ends := part.1 :: used.map (fun u => u.1 + u.2)
  let fits := fun a => decide (a + n ≤ part.1 + part.2) && decide (part.1 ≤ a) &&
    used.all (fun u => decide (a + n ≤ u.1) || decide (u.1 + u.2 ≤ a))
  ((sortBy id ends).find? fits)

end Sys2Proof.Machine
end

