-- ==== Sys2Proof/Machine/Wire.lean ====
section
/-! DEFINITION. Operations on the wire and the outbound queue: codes, bodies, retry times, channels, staging shares
(R92 to R95, R121, R149, R154, R230, R255 to R274, R47). -/

namespace Sys2Proof.Machine

/-- Operation codes (R258). -/
def OpBody.code : OpBody → Nat
  | .delta .. => 0x00
  | .shadow .. => 0x01
  | .commit _ => 0x02
  | .ledgerPut _ => 0x03
  | .ledgerRetire _ => 0x04
  | .ledgerRead _ => 0x05
  | .fragRead _ => 0x06
  | .rebuildPut .. => 0x07
  | .cutover _ => 0x08
  | .gradForward _ => 0x09
  | .reemitForward _ => 0x0A
  | .degraded _ => 0x0B
  | .handshake _ => 0x0C
  | .unlisted c => c

/-- Flagged operations (R258). -/
def OpBody.flagged : OpBody → Bool
  | .commit _ => true
  | .cutover _ => true
  | _ => false

/-- The stripe and row of a row-checked operation (R258). -/
def OpBody.rowChecked : OpBody → Option (Nat × Nat)
  | .delta b _ => some (b.stripe, b.row)
  | .shadow b _ => some (b.stripe, b.row)
  | .commit b => some (b.stripe, b.row)
  | .fragRead b => some (b.stripe, b.row)
  | .rebuildPut b _ => if b.stripe = 0xFFFFFFFF then none else some (b.stripe, b.row)
  | _ => none

/-- FRAG_READ and MAP_HANDSHAKE, which are executed again when retransmitted (R271). -/
def OpBody.repeats : OpBody → Bool
  | .fragRead _ => true
  | .handshake _ => true
  | _ => false

/-- The operation is an offer that carries CHANNEL_RESET (R261). -/
def OpBody.isReset : OpBody → Bool
  | .handshake h => h.channelReset
  | _ => false

/-- The range number that stands for "no range" in a SCALARS entry (R94). -/
def noRange : Nat := 0xFFFFFFFFFFFF

/-- The 64-byte header of a ledger entry (R94). -/
def ledgerHeader (e : LedgerEntry) : Bytes :=
  packed 64 [(0, 8, e.range), (8, 8, e.step), (16, 2, e.srcNode), (18, 1, e.srcHome), (19, 1, e.kind), (20, 4, e.layer),
    (24, 1, e.format), (25, 1, b2n e.incomplete), (28, 4, e.payloadBytes), (32, 8, e.crc.toNat)]

/-- The payload granules of a ledger entry (R94). -/
def ledgerGranules (e : LedgerEntry) : List Bytes := piecesOf 256 (padTo 256 e.payload)

/-- Bytes an entry takes in a part of the ledger region (R107). -/
def ledgerStored (e : LedgerEntry) : Nat := 256 + 256 * (ledgerGranules e).length

/-- A ledger entry formed by a home (R19, R94, R108). -/
def ledgerEntryOf (src : Home) (kind range step layer format : Nat) (incomplete : Bool) (payload : Bytes) : LedgerEntry :=
  { range := range, step := step, srcNode := src.node, srcHome := src.idx, kind := kind, layer := layer,
    format := format, incomplete := incomplete, payloadBytes := payload.length, crc := crc64 payload, payload := payload }

/-- The body bytes of an operation, fields little-endian at the offsets of its table. -/
def OpBody.bytes : OpBody → Bytes
  | .delta b _ => packed 32 [(0, 4, b.stripe), (4, 4, b.row), (8, 1, b.srcPos), (9, 1, b.dstRole), (10, 1, b.dstIndex),
      (11, 1, b.count), (12, 2, b.mask), (16, 4, b.step), (20, 4, b.prev), (24, 1, b2n b.first)]
  | .shadow b _ => packed 32 [(0, 4, b.stripe), (4, 4, b.row), (8, 1, b.srcPos), (9, 1, b.dstRole), (10, 1, b.dstIndex),
      (11, 1, b.count), (12, 2, b.mask), (16, 4, b.step), (20, 4, b.prev), (24, 1, b2n b.first)]
  | .commit b => packed 64 [(0, 4, b.stripe), (4, 4, b.row), (8, 1, b.srcPos), (9, 1, b.dstRole), (10, 1, b.dstIndex),
      (11, 1, b2n b.first + 2 * b2n b.reconstructed), (12, 2, b.mask), (16, 4, b.step), (20, 4, b.prev),
      (24, 8, b.digest.toNat)]
  | .ledgerPut e => ledgerHeader e
  | .ledgerRetire b => packed 32 [(0, 8, b.range), (8, 8, b.step), (16, 4, b.layer), (20, 1, b.kind), (22, 2, b.scalarNode),
      (24, 1, b.scalarHome)]
  | .ledgerRead b => packed 32 [(0, 8, b.range), (8, 8, b.step), (16, 4, b.layer), (20, 1, b.kind), (22, 2, b.scalarNode),
      (24, 1, b.scalarHome)]
  | .fragRead b => packed 32 [(0, 4, b.stripe), (4, 4, b.row), (8, 1, b.role), (9, 1, b.index), (10, 1, b.mode),
      (12, 2, b.mask), (16, 4, b.version)]
  | .rebuildPut b _ => packed 64 [(0, 4, b.stripe), (4, 4, b.row), (8, 1, b.srcPos), (9, 1, b.dstRole), (10, 1, b.dstIndex),
      (11, 1, b.count), (12, 2, b.mask),
      (16, 4, b.version), (20, 4, b.prev),
      (24, 1, b2n b.full + 2 * b2n b.probe + 4 * b2n b.zero + 8 * b2n b.reconstructed + 16 * b2n b.shadowApprox),
      (32, 8, b.digest.toNat)]
  | .cutover b => packed 64 [(0, 8, b.range), (8, 8, b.step), (16, 8, b.rangeDigest.toNat), (24, 1, b2n b.reconstructed)]
  | .gradForward e => ledgerHeader e
  | .reemitForward r => packed 32 [(0, 1, r.ctx), (4, 4, r.layer), (8, 8, r.firstRange), (16, 4, r.rangeCount),
      (24, 8, r.step)]
  | .degraded d => packed 32 [(0, 4, d.imageVersion), (4, 1, d.entries.length), (8, 2, d.detector.node),
      (10, 1, d.detector.idx)] ++
      padTo 256 (d.entries.flatMap (fun l => packed 8 [(0, 2, l.home.node), (2, 1, l.home.idx), (3, 1, l.cause)]))
  | .handshake h => packed 32 [(0, 4, h.imageVersion), (4, 4, h.contract), (8, 2, h.ctxTag), (10, 1, b2n h.channelReset),
      (12, 4, h.epoch), (16, 4, h.seqBase)]
  | .unlisted _ => []

/-- The payload granules of an operation (R258). -/
def OpBody.payload : OpBody → List Bytes
  | .delta _ p => p
  | .shadow _ p => p
  | .ledgerPut e => ledgerGranules e
  | .rebuildPut _ p => p
  | .gradForward e => ledgerGranules e
  | _ => []

/-- The extension of a response: the lost set (R122, R264), the responder's three values (R262), a fragment's 32 bytes (R260), the
floor (R190). -/
def extBytes : RespExt → Bytes
  | .none => []
  | .lostSet d => (OpBody.degraded d).bytes
  | .handshake h => (OpBody.handshake h).bytes
  | .frag v d a mask _ vec => packed 32 [(0, 4, v), (4, 8, d.toNat), (12, 1, a), (13, 1, vec.length), (14, 2, mask)]
  | .floor set f _ => packed 8 [(0, 6, f), (7, 1, 0x80 * b2n set)]

/-- The payload of a response: a fragment's granules and its vector entries (R260), or the stored entry of a LEDGER_READ (R190;
log entry 146). -/
def extPayload : RespExt → List Bytes
  | .frag _ _ _ _ gs vec => gs ++ piecesOf 256 (padTo 256 (vec.flatMap vecBytes))
  | .floor _ _ (some e) => padTo 256 (ledgerHeader e) :: ledgerGranules e
  | _ => []

/-- The 32 bytes of a response's body (R264). -/
def respBytes (b : RespBody) : Bytes :=
  packed 32 [(0, 1, b.status), (1, 1, b.reason), (2, 1, b.info), (3, 1, b.opcode), (4, 2, b.retryAfter), (8, 4, (extBytes b.ext).length)]

/-- A response body without extension. -/
def respOf (status reason info : Nat) : RespBody :=
  { status := status, reason := reason, info := info, opcode := 0, retryAfter := 0, ext := .none }

/- Statuses of R264. -/
namespace St
def ok := 0x00
def stale := 0x01
def retry := 0x02
def notReady := 0x03
def instOff := 0x04
def building := 0x05
def damaged := 0x06
def absent := 0x07
def ctxMismatch := 0x08
def versionUnavailable := 0x09
def mismatch := 0x0A
def malformed := 0x0B
def notHeld := 0x0C
end St

/-- OK with its INFO: 0 APPLIED, 1 DUPLICATE, 2 NO_EXTENT, 3 MATCH, 4 NEED, 5 POISONED (R264). -/
def ansOk (info : Nat) : RespBody := respOf St.ok 0 info
def ansRetry (reason : Nat) : RespBody := respOf St.retry reason 0
def ansNotReady (reason : Nat) : RespBody := respOf St.notReady reason 0
def ansMalformed : RespBody := respOf St.malformed 0 0

/-- RETRY_AFTER in units of 10 ns (R265). -/
def retryAfter (status reason srcNode : Nat) : Nat :=
  let n := srcNode % 64
  if status = St.notReady then
    match reason with
    | 1 => 5000 + n * 200
    | 5 => 10000 + n * 200
    | 6 => 2000 + n * 100
    | 2 => 1000 + n * 25
    | 4 => 1000 + n * 25
    | 7 => 1000 + n * 25
    | _ => 0
  else if status = St.retry then (if ([6, 1, 7, 8, 9, 10] : List Nat).contains reason then (1000 + n * 31) / 10 else 0)
  else if status = St.mismatch ∨ status = St.ctxMismatch then 1000 + n * 25
  else 0

/-- The source home of an operation as the fabric stamps it (R257). -/
def hdrHome (h : FabHdr) : Home := { node := h.srcNode, idx := h.srcHome }

/-- A channel that nothing has used yet: no inbound base, and a reset due outbound (R271; log entry 27). -/
def Chan.fresh (h : Home) : Chan :=
  { peer := h, outSeq := 0, resetDue := true, parked := false, offWait := false, inNext := none, answered := [],
    deferred := [], record := [], waiting := [] }

/-- The channel pair with a peer. -/
def Inst.chan (i : Inst) (h : Home) : Chan := (i.fab.chans.find? (fun c => c.peer = h)).getD (Chan.fresh h)
def putChan (c : Chan) (l : List Chan) : List Chan :=
  if l.any (fun x => x.peer = c.peer) then l.map (fun x => if x.peer = c.peer then c else x) else l ++ [c]
def Inst.setChan (c : Chan) (i : Inst) : Inst := { i with fab := { i.fab with chans := putChan c i.fab.chans } }
def Inst.modChan (h : Home) (f : Chan → Chan) (i : Inst) : Inst := i.setChan (f (i.chan h))

/-- An operation handed to the fabric port: it waits in its owner's order (R272). -/
def Inst.send (dst : Home) (ctx share : Nat) (owner : OpOwner) (body : OpBody) (poison : Nat) (i : Inst) : Inst :=
  let o : OutOp := { id := i.fab.nextId, dst := dst, ctx := ctx, body := body, owner := owner, share := share,
                     poison := poison, held := false }
  { i with fab := { i.fab with outq := i.fab.outq ++ [o], nextId := i.fab.nextId + 1 } }

/-- Every operation not yet answered: queued, in the completion table, or waiting for its RETRY_AFTER. -/
def Fabric.all (f : Fabric) : List OutOp := f.outq ++ (f.cpl.map (fun e => e.2.op)) ++ f.retry

/-- Operations dropped wherever they are. -/
def Fabric.drop (p : OutOp → Bool) (f : Fabric) : Fabric :=
  { f with outq := f.outq.filter (fun o => !p o), retry := f.retry.filter (fun o => !p o),
           cpl := f.cpl.filter (fun e => !p e.2.op) }

/-- Whether the route to a node is DIRECT: as last notified, else this die or one hop in a live map (R255; log entry 28). -/
def Inst.direct (i : Inst) (node : Nat) : Bool :=
  match i.fab.routes.find node with
  | some v => v == 1
  | none => node == i.self.node || i.ctxs.any (fun c => c.2.live &&
      (match c.2.map.image with | some m => m.homes.any (fun h => h.home.node == node && h.hops ≤ 1) | none => false))

/-- A response put on the fabric port: it echoes SEQ and TAG, and its opcode and RETRY_AFTER are filled (R256, R264, R265). -/
def Inst.respond (h : FabHdr) (opcode poison : Nat) (b : RespBody) (i : Inst) : Inst :=
  let r : RespBody := { b with opcode := opcode, retryAfter := retryAfter b.status b.reason h.srcNode }
  let hdr : FabHdr :=
    { opcode := 0x40, ctx := h.ctx, srcNode := 0, srcHome := i.self.idx, flagged := false, retransmit := false,
      message := !i.direct h.srcNode, granules := (extPayload r.ext).length, ctxTag := i.ctxTag h.ctx,
      mapVersion := (i.ctx h.ctx).mapVersion, seq := h.seq, tag := h.tag, poison := poison }
  i.emitOut (.response (headerBytes (hdrHome h) hdr) (respBytes r) (extBytes r.ext) (extPayload r.ext))

/-- Completion-table use by share (R272). -/
def Fabric.cplUsed (f : Fabric) (s : Nat) : Nat := (f.cpl.filter (fun e => e.2.op.share = s)).length
def cplSize : Nat → Nat
  | 1 => 4096
  | _ => 1024

/-- Whether a share may take one more entry, its own or borrowed; the fault-service share 0 is never lent (R272). -/
def Fabric.cplRoom (f : Fabric) (s : Nat) : Bool :=
  let used := fun t => f.cplUsed t + (if t = s then 1 else 0)
  let excess := ((List.range 5).map (fun t => used t - cplSize t)).sum
  let slack := (([1, 2, 3, 4] : List Nat).map (fun t => cplSize t - used t)).sum
  decide (excess ≤ slack)

/-- Operations of a channel not yet answered (R269). -/
def Fabric.unanswered (f : Fabric) (h : Home) : Nat := (f.cpl.filter (fun e => e.2.op.dst = h)).length

/-- Bytes a running command holds in the command share: its outstanding reads of host memory (R287), and one buffer through which a
cold-tier command streams (log entry 130). -/
def Running.staged (r : Running) : Nat :=
  4096 * (r.chunks.filter (fun c => c.phase == .reading)).length + (if r.cold.isSome then 65536 else 0)

/-- Bytes of a caravan or a push that wait for their answer. -/
def OutOp.carried (o : OutOp) : Nat := match o.body with | .rebuildPut _ p => 256 * p.length | _ => 0

/-- Bytes the units hold in a share of staging (R47; log entry 30): 0 ingress, 1 coding, 2 emit, 3 fault service, 4 membership,
5 command. -/
def Inst.shareBytes (i : Inst) (s : Nat) : Nat :=
  match s with
  | 0 => (i.opt.work.map (fun w => if w.place = .ingress ∧ (w.stage = .pending ∨ w.stage = .updating ∨ w.putsDue ≠ [])
      then w.payload.length else 0)).sum
  | 1 => (i.cod.backlog.map (fun r => if r.spillAt.isSome then 0 else 256 * (1 + r.delta.length))).sum +
      (i.cod.opens.map (fun o => 256 * o.kept.length)).sum +
      (i.fab.chans.map (fun c => (c.waiting.map (fun o => 256 * (1 + o.body.payload.length))).sum)).sum
  | 2 => (i.emit.waiting.map (fun b => b.bytes.length)).sum
  | 3 => (i.flt.copies.map (fun c => c.bytes.length)).sum +
      (i.flt.jobs.map (fun j => (j.rows.map (fun r => (r.got.map (fun g => g.bytes.length)).sum +
        (match r.done with | some d => d.2.1.length | none => 0))).sum + (j.ledger.map (fun e => e.payload.length)).sum)).sum
  | 4 => (i.fab.all.map OutOp.carried).sum
  | 5 => (i.cmdq.running.map Running.staged).sum
  | _ => 0

/-- Buffers of a share held by initiators (R320). -/
def Inst.shareHeld (i : Inst) (s : Nat) : Nat := (i.pool.owned.filter (fun b => b.2.share = s)).length

/-- Buffers in use of a share. -/
def Inst.shareUsed (i : Inst) (s : Nat) : Nat := cdiv (i.shareBytes s) 65536 + i.shareHeld s

/-- Whether `n` more bytes find space in a share, its own or borrowed; the fault-service share is never lent (R47). -/
def Inst.shareRoom (i : Inst) (s n : Nat) : Bool :=
  let used := fun t => if t = s then cdiv (i.shareBytes t + n) 65536 + i.shareHeld t else i.shareUsed t
  let size := fun t => i.pool.active.getD t 0
  let excess := ((List.range 6).map (fun t => used t - size t)).sum
  let slack := (([0, 1, 2, 4, 5] : List Nat).map (fun t => size t - used t)).sum
  decide (excess ≤ slack)

/-- Free buffers: those on the list less what the units fill (R315, R318; log entry 30). -/
def Inst.freeBuffers (i : Inst) : Nat := i.pool.free.length - ((List.range 6).map (fun s => cdiv (i.shareBytes s) 65536)).sum

/-- What a context alone holds in staging. -/
def Inst.onlyCtx (x : Nat) (i : Inst) : Inst :=
  { i with
    opt := { i.opt with work := i.opt.work.filter (fun w => decide (w.ctx = x)) },
    cod := { i.cod with backlog := i.cod.backlog.filter (fun r => decide (r.chunk.ctx = x)), opens := i.cod.opens.filter (fun o => decide (o.ctx = x)) },
    fab := { i.fab with chans := i.fab.chans.map (fun c => { c with waiting := c.waiting.filter (fun o => decide (o.hdr.ctx = x)) }) },
    emit := { i.emit with waiting := i.emit.waiting.filter (fun b => decide (b.ctx = x)) } }

/-- Buffers a context holds in the ingress, coding and emit shares (R316). -/
def Inst.ctxHeld (x : Nat) (i : Inst) : Nat := ([0, 1, 2].map (fun s => cdiv ((i.onlyCtx x).shareBytes s) 65536)).sum

/-- Whether `n` more bytes of a context find room in the ingress, coding or emit share: the share has room, and the minima of the
other contexts stay covered unless the context is below its own (R47, R316). -/
def Inst.ctxRoom (i : Inst) (x s n : Nat) : Bool :=
  let have_ := (i.onlyCtx x).shareBytes s
  let more := cdiv (have_ + n) 65536 - cdiv have_ 65536
  let owed := ((i.ctxs.filter (fun c => c.1 ≠ x)).map (fun c => if c.2.run.poolMin = 0 then 0 else c.2.run.poolMin - i.ctxHeld c.1)).sum
  i.shareRoom s n && (decide (more = 0) || decide (i.ctxHeld x < (i.ctx x).run.poolMin) || decide (more + owed ≤ i.freeBuffers))

/-- An allocation from a share that failed (R317). -/
def Inst.poolFail (s : Nat) (i : Inst) : Inst := i.count (Cnt.poolFail + s) 1

/-- Modular comparison of step versions (R98). -/
def newer (a b : Nat) : Bool :=
  let d := (a + 2 ^ 32 - b % 2 ^ 32) % 2 ^ 32
  decide (1 ≤ d) && decide (d < 2 ^ 31)

/-- A 32-bit version extended with the high bits of a step counter (R14), to the step nearest to the counter (log entry 134). -/
def extendStep (counter v : Nat) : Nat :=
  let base := counter / 2 ^ 32 * 2 ^ 32
  let c := base + v % 2 ^ 32
  if c + 2 ^ 31 ≤ counter then c + 2 ^ 32
  else if counter + 2 ^ 31 < c ∧ 2 ^ 32 ≤ c then c - 2 ^ 32
  else c

end Sys2Proof.Machine
end

