-- ==== Sys2Proof/Machine/CmdQ.lean ====
section
/-! DEFINITION. The command queue: descriptors, start order, completion records, and when a LOAD or a COLONY_CHECK has finished
(R284, R285, R308 to R311). -/

namespace Sys2Proof.Machine

/-- A word of a descriptor; an A64 pair (R309). -/
def Descr.word (n : Nat) (d : Descr) : Nat := ((d.words[n]?).map BitVec.toNat).getD 0
def Descr.a64 (n : Nat) (d : Descr) : Nat := bits (d.word n) 30 0 * 2 ^ 6 + bits (d.word (n + 1)) 26 0 * 2 ^ 37

/-- The fields of word 0 (R309). -/
def Descr.op (d : Descr) : Nat := bits (d.word 0) 27 22
def Descr.ctx (d : Descr) : Nat := bits (d.word 0) 21 16
def Descr.tag (d : Descr) : Nat := bits (d.word 0) 15 8
def Descr.arg (d : Descr) : Nat := bits (d.word 0) 7 0

/-- The bits each word of a descriptor may carry, by opcode; none for an undefined one (R309, R310). -/
def descrMasks : Nat → Option (List Nat)
  | 0x01 => some [0x01, 0x1FFFF, 0x7FFFFFFF, 0x7FFFFFF]
  | 0x02 => some [0x1F, 0x7FFFFFFF, 0x7FFFFFF]
  | 0x03 => some [0x1F, 0x7FFFFFFF, 0x1FFFF, 0x7FFFFFFF, 0x7FFFFFFF, 0x7FFFFFFF, 0x7FFFFFF]
  | 0x04 => some [0x0F, 0x7FFFFFFF, 0x7FFFFFFF, 0x7FFFFFF]
  | 0x05 => some [0x03, 0x7FFFFFFF, 0x7FFFFFFF, 0x7FFFFFFF]
  | 0x06 => some [0x00]
  | 0x07 => some [0x00, 0x7FFFFFFF, 0x7FFFFFFF, 0x7FFFFFF]
  | 0x08 => some [0x00, 0x7FFFFFFF, 0x7FFFFFFF, 0x7FFFFFF]
  | _ => none

/-- Values the layout itself rules out: a zero length or range count, a source that is not 4 KiB aligned, a source where none is
named (R310; log entry 45). -/
def Descr.valuesOk (d : Descr) : Bool :=
  match d.op with
  | 0x01 => decide (1 ≤ bits (d.word 1) 16 0) && (!d.arg.testBit 0 || decide (d.a64 2 = 0))
  | 0x03 => decide (1 ≤ bits (d.word 3) 30 0) && decide (d.a64 5 % 4096 = 0) && (!d.arg.testBit 3 || decide (d.a64 5 = 0))
  | _ => true

/-- Whether a descriptor is not a BAD_DESCRIPTOR (R310). -/
def Descr.ok (d : Descr) : Bool :=
  match descrMasks d.op with
  | none => false
  | some ms => ms.length == d.words.length && (d.arg ||| ms.headD 0) == ms.headD 0 &&
      ((d.words.drop 1).zip (ms.drop 1)).all (fun p => (p.1.toNat ||| p.2) == p.2) && d.valuesOk

/-- Words a descriptor has by its first word (R309). -/
def descrLen (w : Word) : Nat := bits w.toNat 30 28 + 1

/-- Free words of the queue: those of incomplete descriptors are reserved (R308, R367; log entry 46). -/
def CmdQ.free (q : CmdQ) : Nat :=
  256 - (q.queue.map (fun d => d.words.length)).sum - (q.asm.map (fun a => (a.2.head?.map descrLen).getD 0)).sum

/-- A completion record and its event (R311, R383). `fields` are those from byte 16 on. -/
def Inst.complete (d : Descr) (status : Nat) (fields : List (Nat × Nat × Nat)) (i : Inst) : Inst :=
  let rec_ := packed 128 ([(0, 1, d.op), (1, 1, d.ctx), (2, 1, d.tag), (3, 1, status), (4, 1, d.init), (8, 8, i.view.time)] ++ fields)
  let base := i.cmdq.base.getD 0 d.init
  let j := if base = 0 then i else i.emitOut (.hostWrite (base + d.tag * 128) rec_)
  j.event 0x1004 (if d.op = 7 ∨ d.op = 8 then none else some d.ctx) [(20, 1, d.op), (21, 1, d.tag), (22, 1, status), (23, 1, d.init)]

/-- A command that ends with its own result code and a count of items (R311). -/
def Inst.finishCmd (d : Descr) (status code items : Nat) (i : Inst) : Inst := i.complete d status [(16, 4, code), (20, 4, items)]

/-- The descriptor that may start now, if it has the given opcode: the queue's first, while fewer than four commands run (R311) and
the command share has a buffer (R317; log entry 130). -/
def Inst.startable (op : Nat) (i : Inst) : Option Descr :=
  match i.cmdq.queue.head? with
  | some d => if i.running && d.op == op && decide (i.cmdq.running.length < 4) && i.shareRoom 5 65536 then some d else none
  | none => none

/-- The allocation failure of a command that waits for a buffer before it starts (R317). -/
def Inst.startWait (op : Nat) (i : Inst) : Inst :=
  match i.cmdq.queue.head? with
  | some d => if i.running && d.op == op && decide (i.cmdq.running.length < 4) && !i.shareRoom 5 65536 then i.poolFail 5 else i
  | none => i

/-- The queue's first descriptor taken. -/
def Inst.takeCmd (i : Inst) : Inst := { i with cmdq := { i.cmdq with queue := i.cmdq.queue.drop 1 } }

/-- A command that goes on running. -/
def Inst.runCmd (r : Running) (i : Inst) : Inst :=
  { i with cmdq := { i.cmdq with running := i.cmdq.running ++ [{ r with serial := i.cmdq.next }], next := i.cmdq.next + 1 } }
def Inst.cmd (i : Inst) (serial : Nat) : Option Running := i.cmdq.running.find? (fun r => r.serial = serial)
def Inst.putCmd (r : Running) (i : Inst) : Inst :=
  { i with cmdq := { i.cmdq with running := i.cmdq.running.map (fun p => if p.serial = r.serial then r else p) } }
def Inst.endCmd (serial : Nat) (i : Inst) : Inst :=
  { i with cmdq := { i.cmdq with running := i.cmdq.running.filter (fun p => p.serial ≠ serial) } }

/-- A command with nothing done yet. -/
def Running.fresh (d : Descr) : Running :=
  { serial := 0, descr := d, chunks := [], counts := List.replicate 9 0, first := List.replicate 8 none, frags := [], items := 0,
    cold := none }

/-- A chunk's status counted, and remembered as the first refused with it (R285). -/
def Running.note (c : ChunkId) (status : Nat) (r : Running) : Running :=
  { r with counts := setAt status (r.counts.getD status 0 + 1) r.counts,
           first := if status = 0 then r.first else match r.first.getD (status - 1) none with
             | some _ => r.first
             | none => setAt (status - 1) (some c) r.first,
           chunks := r.chunks.map (fun l => if l.id = c then { l with phase := .ended } else l) }

/-- The FIRST fields of a LOAD's record (R311). -/
def firstField (n : Nat) : Option ChunkId → List (Nat × Nat × Nat)
  | some c => [(56 + 8 * n, 6, c.q), (62 + 8 * n, 1, c.cls), (63 + 8 * n, 1, c.k)]
  | none => [(56 + 8 * n, 8, 2 ^ 64 - 1)]

/-- A LOAD whose every chunk is done or refused completes (R284, R285). -/
def Inst.endLoad (r : Running) (i : Inst) : Inst :=
  let refused := (r.counts.drop 1).any (· ≠ 0)
  (i.endCmd r.serial).complete r.descr (b2n refused)
    ((r.counts.mapIdx (fun n c => (16 + 4 * n, 4, c))) ++ (r.first.mapIdx firstField).flatten)

/-- Chunks of a LOAD whose every COMMIT has been acknowledged are done (R284). -/
def Inst.settleLoad (r : Running) (i : Inst) : Inst :=
  let ready := r.chunks.filter (fun c => c.phase == .written && !i.cod.backlog.any (fun b => b.isLoad && decide (b.chunk = c.id)))
  let n := ready.foldl (fun (r : Running) c => r.note c.id 0) r
  let j := if ready.isEmpty then i else i.putCmd n
  if n.cold.isNone && n.chunks.all (fun c => c.phase == .ended) then j.endLoad n else j

/-- Every running LOAD looked at. -/
def Inst.settleLoads (i : Inst) : Inst :=
  (i.cmdq.running.filter (fun r => r.descr.op = 3)).foldl (fun i r => i.settleLoad r) i

/-- A COLONY_CHECK none of whose rows is still being checked completes (R252, R311). -/
def Inst.settleChecks (i : Inst) : Inst :=
  (i.cmdq.running.filter (fun r => r.descr.op = 5)).foldl (fun (i : Inst) r =>
    let left := r.frags.filter (fun f => i.flt.jobs.any (fun j => decide (j.ctx = r.descr.ctx) &&
      (match j.kind with | .rowRepair g _ check => check && decide (g = f) | _ => false)))
    if left.isEmpty then (i.endCmd r.serial).finishCmd r.descr 0 0 r.items else i.putCmd { r with frags := left }) i

/-- Whether a LOAD holds a range for a chunk whose read is outstanding (R286). -/
def Inst.loadHolds (i : Inst) (x q : Nat) : Bool :=
  i.cmdq.running.any (fun r => r.chunks.any (fun c => c.phase == .reading && decide (c.id.ctx = x) && decide (c.id.q = q)))

end Sys2Proof.Machine
end

