-- ==== Sys2Proof/Machine/EmitFmt.lean ====
section
/-! DEFINITION. Transport records: block scales, rounding, escape blocks, poison and the record layout (R218 to R227). -/

namespace Sys2Proof.Machine

/-- The counts of R233 that building a record adds to. -/
structure EmitCounts where
  nan       : Nat := 0
  sat       : Nat := 0
  underflow : Nat := 0
  esc       : Nat := 0
  escDenied : Nat := 0
  poison    : Nat := 0
  deriving DecidableEq, Repr

/-- The sum of two counts. -/
def EmitCounts.add (a b : EmitCounts) : EmitCounts :=
  { nan := a.nan + b.nan, sat := a.sat + b.sat, underflow := a.underflow + b.underflow, esc := a.esc + b.esc,
    escDenied := a.escDenied + b.escDenied, poison := a.poison + b.poison }

/-- What a record is built from (the opening of the chapter, and R220). -/
structure EmitIn where
  ctx      : Nat
  tformat  : Nat
  layer    : Nat
  range    : Nat
  step     : Nat
  seed     : Nat
  width    : Nat
  valid    : Nat
  lanes    : List Word
  poisoned : List Bool
  reemit   : Bool
  reconMark : Bool
  deriving DecidableEq, Repr

/-- The fields of a TRANSPORT_FORMAT byte (R218). -/
def tfRound (t : Nat) : Bool := t.testBit 7
def tfBlock (t : Nat) : Nat := 2 ^ (bits t 6 4 + 3)
def tfElem (t : Nat) : Option Elem := elemOf (t % 16)
/-- Whether a TRANSPORT_FORMAT byte is defined (R218). -/
def tfDefined (t : Nat) : Bool := (tfElem t).isSome && decide (bits t 6 4 ≤ 5)

/-- Escape rule of an element code (R219): never, uncapped, or capped. -/
def escNever (e : Nat) : Bool := e == 1 || e == 2
def escCapped (e : Nat) : Bool := e == 5 || e == 7 || e == 8

/-- A lane of a block: its range offset and its value. -/
abbrev Lane := Nat × Val

/-- The finite non-zero magnitudes of a block's lanes. -/
def finiteMags (ls : List Lane) : List (Nat × Int) :=
  ls.filterMap (fun l => match l.2 with
    | .fin _ m e => if m = 0 then none else some (m, e)
    | _ => none)

/-- The largest and the smallest of a list of dyadic magnitudes (a_max of R223, n_min of R226). -/
def dyMax : List (Nat × Int) → Option (Nat × Int)
  | [] => none
  | x :: t => some (t.foldl (fun a y => if dyLe a.1 a.2 y.1 y.2 then y else a) x)
def dyMin : List (Nat × Int) → Option (Nat × Int)
  | [] => none
  | x :: t => some (t.foldl (fun a y => if dyLe a.1 a.2 y.1 y.2 then a else y) x)

/-- The scale exponent X: the smallest with a_max · 2^(−X) ≤ f_max, limited to −127 … 127 (R223). -/
def scaleExp (f : Elem) (amax : Nat × Int) : Int :=
  let fm := f.magOf f.maxCode
  let x0 : Int := ((amax.1.log2 : Int) + amax.2) - ((fm.1.log2 : Int) + fm.2)
  let x := if dyLe amax.1 (amax.2 - x0) fm.1 fm.2 then x0 else x0 + 1
  max (-127) (min 127 x)

/-- One lane encoded under a scale (R224, R225): the code and its counts. -/
def encodeLane (f : Elem) (round : Bool) (u : Word) (x : Int) (v : Val) : Nat × EmitCounts :=
  match v with
  | .nan => (0, { nan := 1 })
  | .inf neg => (f.encode neg f.maxCode, { sat := 1 })
  | .fin neg m e =>
    if m = 0 then (0, {})
    else
      let fm := f.magOf f.maxCode
      if ¬ dyLe m (e - x) fm.1 fm.2 then (f.encode neg f.maxCode, { sat := 1 })
      else
        let c := if round then
            let y := f.floorCode m (e - x)
            if u.toNat / 256 < y.2.1 * 2 ^ 24 / y.2.2 then y.1 + 1 else y.1
          else f.nearest m (e - x)
        if c = 0 then (0, { underflow := 1 }) else (f.encode neg c, {})

/-- A block encoded in a format: scale code, element codes, counts (R222 to R225). -/
def encodeBlock (f : Elem) (i : EmitIn) (ls : List Lane) : Nat × List Nat × EmitCounts :=
  let am := dyMax (finiteMags ls)
  let x : Int := match am with | none => 0 | some a => scaleExp f a
  let r := ls.map (fun l => encodeLane f (tfRound i.tformat) (genMix i.seed i.step i.layer i.range l.1) x l.2)
  ((x + 127).toNat, r.map (·.1), r.foldl (fun a c => a.add c.2) {})

/-- A block as the record sees it. -/
structure BlockView where
  idx      : Nat
  lanes    : List Lane
  poisoned : Bool
  ratio    : Option ((Nat × Int) × (Nat × Int))
  deriving DecidableEq, Repr

/-- Whether a_max / n_min exceeds the range ratio ρ = f_max / s_min (R226). -/
def overRatio (f : Elem) (a n : Nat × Int) : Bool :=
  let fm := f.magOf f.maxCode
  let sm := f.magOf 1
  !dyLe (a.1 * sm.1) (a.2 + sm.2) (n.1 * fm.1) (n.2 + fm.2)

/-- The blocks of a range; lanes at or above VALID_LANES are zero (R222). -/
def blockViews (i : EmitIn) : List BlockView :=
  let b := tfBlock i.tformat
  let ls : List (Lane × Bool) := ((i.lanes.take i.width).zip (i.poisoned ++ List.replicate i.width false)).zipIdx.map
    (fun x => ((x.2, if x.2 < i.valid then f32Val x.1.1 else .fin false 0 0), x.1.2))
  (piecesOf b ls).mapIdx (fun n blk =>
    let lanes := blk.map (·.1)
    let ms := finiteMags lanes
    { idx := n, lanes := lanes, poisoned := blk.any (·.2),
      ratio := match dyMax ms, dyMin ms with | some a, some m => some (a, m) | _, _ => none })

/-- Whether the ratio of one block is strictly larger than another's. -/
def ratioGt (x y : (Nat × Int) × (Nat × Int)) : Bool :=
  !dyLe (x.1.1 * y.2.1) (x.1.2 + y.2.2) (y.1.1 * x.2.1) (y.1.2 + x.2.2)

/-- Insertion into a list by falling ratio, lower index first on equal ratios (R226). -/
def insertRatio (b : Nat × ((Nat × Int) × (Nat × Int))) :
    List (Nat × ((Nat × Int) × (Nat × Int))) → List (Nat × ((Nat × Int) × (Nat × Int)))
  | [] => [b]
  | x :: t => if ratioGt b.2 x.2 then b :: x :: t else x :: insertRatio b t

/-- The escape blocks and the number of candidates denied (R226). -/
def escapes (code : Nat) (f : Elem) (bs : List BlockView) : List Nat × Nat :=
  if escNever code then ([], 0)
  else
    let cand := bs.filterMap (fun b => if b.poisoned then none else
      match b.ratio with
      | some r => if overRatio f r.1 r.2 then some (b.idx, r) else none
      | none => none)
    let sorted := cand.foldl (fun acc b => insertRatio b acc) []
    let n := if escCapped code then bs.length / 8 else sorted.length
    ((sorted.take n).map (·.1), sorted.length - n)

/-- The header beat of a record (R220). -/
def recordHeader (i : EmitIn) (flags status blocks esc bytes : Nat) (crc : BitVec 64) : Bytes :=
  natLe 1 i.ctx ++ natLe 1 i.tformat ++ natLe 1 flags ++ natLe 1 status ++ natLe 4 i.layer ++ natLe 8 i.range ++
    natLe 8 i.step ++ natLe 2 blocks ++ natLe 2 esc ++ natLe 2 (if status = 0 then i.valid else 0) ++ natLe 2 0 ++ natLe 4 bytes ++
    natLe 4 0 ++ natLe 8 crc.toNat ++ List.replicate 16 0

/-- The record of a range (R220 to R227) with its counts. -/
def buildRecord (i : EmitIn) : Bytes × EmitCounts :=
  match tfElem i.tformat with
  | none => ([], {})
  | some f =>
    let bs := blockViews i
    let esc := escapes (i.tformat % 16) f bs
    let e4 : Elem := ⟨some 3, -9, 0x7E, 8⟩
    let enc := bs.map (fun b =>
      if b.poisoned then (0xFF, b.lanes.map (fun _ => 0), none, ({ poison := 1 } : EmitCounts))
      else if esc.1.contains b.idx then
        let r := encodeBlock e4 i b.lanes
        (r.1, b.lanes.map (fun _ => 0), some r.2.1, { r.2.2 with esc := 1 })
      else
        let r := encodeBlock f i b.lanes
        (r.1, r.2.1, none, r.2.2))
    let scales := padTo 64 (enc.map (fun x => BitVec.ofNat 8 x.1))
    let escMap := padTo 64 (packBits (enc.map (fun x => x.2.2.1.isSome)))
    let elems := padTo 64 (packFields f.width (enc.flatMap (fun x => x.2.1)))
    let escArea := padTo 64 (enc.flatMap (fun x => (x.2.2.1.getD []).map (fun c => BitVec.ofNat 8 c)))
    let areas := scales ++ escMap ++ elems ++ escArea
    let flags := b2n i.reemit + 2 * b2n i.reconMark + 4 * b2n (bs.any (·.poisoned))
    (recordHeader i flags 0 bs.length esc.1.length (64 + areas.length) (crc64 areas) ++ areas,
     { enc.foldl (fun a x => a.add x.2.2.2) ({} : EmitCounts) with escDenied := esc.2 })

/-- A header-only answer to a re-emit request (R231). -/
def headerOnly (ctx tformat layer range step status : Nat) : Bytes :=
  recordHeader
    { ctx := ctx, tformat := tformat, layer := layer, range := range, step := step, seed := 0, width := 0,
      valid := 0, lanes := [], poisoned := [], reemit := true, reconMark := false }
    1 status 0 0 64 0

end Sys2Proof.Machine
end

