-- ==== Sys2Proof/Machine/GradFmt.lean ====
section
/-! DEFINITION. Gradient payload formats and their conversion to binary32 (R168, R169). -/

namespace Sys2Proof.Machine

/-- The value rounded to binary32, and whether a finite value became an infinity (R169, GRAD_OVERFLOW). -/
def convertVal (v : Val) : Word × Nat :=
  let w := toF32 v
  match v with
  | .fin _ _ _ => (w, if isInf w then 1 else 0)
  | _ => (w, 0)

/-- The length R168 gives a payload of a format for a range width; none for SPARSE, whose length varies, and for an
unknown code. -/
def gradLength (fmt w : Nat) : Option Nat :=
  match fmt with
  | 1 => some (4 * w)
  | 2 => some (1288 * (w / 256))
  | 3 => some (516 * (w / 256))
  | 5 => some (36 * (w / 256))
  | _ => none

/-- The pairs of a SPARSE payload (R168). -/
def sparsePairs (p : Bytes) : List (Nat × Word) := (piecesOf 8 p).map (fun x => (field 0 4 x, w32 (field 4 4 x)))

/-- Whether indices are strictly ascending and below `w` (R168). -/
def ascendingBelow (w : Nat) : List Nat → Bool
  | [] => true
  | [x] => decide (x < w)
  | x :: y :: t => decide (x < y) && ascendingBelow w (y :: t)

/-- Whether a payload is well formed for its format (R170). -/
def gradWellFormed (fmt w bytes : Nat) (p : Bytes) : Bool :=
  match gradLength fmt w with
  | some n => decide (bytes = n)
  | none => decide (fmt = 4) && decide (bytes % 8 = 0) && decide (bytes ≤ 8 * w) &&
      ascendingBelow w ((sparsePairs (p.take bytes)).map (·.1))

/-- The elements of a gradient before rounding (R169). -/
def gradVals (fmt w : Nat) (p : Bytes) : List Val :=
  match fmt with
  | 1 => (piecesOf 4 p).map (fun x => f32Val (w32 (field 0 4 x)))
  | 2 => (piecesOf 1288 p).flatMap (fun b =>
      let e := signed 16 (field 0 2 b)
      (piecesOf 5 (b.drop 8)).map (fun x =>
        let m := signed 40 (field 0 5 x)
        .fin (decide (m < 0)) m.natAbs e))
  | 3 => (piecesOf 516 p).flatMap (fun b =>
      let s := f32Val (w32 (field 0 4 b))
      (piecesOf 2 (b.drop 4)).map (fun x => (bf16Val (field 0 2 x)).mul s))
  | 4 =>
      let ps := sparsePairs p
      (List.range w).map (fun k => f32Val (Tbl.getD 0 k ps))
  | 5 => (piecesOf 36 p).flatMap (fun b =>
      let s := f32Val (w32 (field 0 4 b))
      ((b.drop 4).flatMap byteBits).map (fun neg => if neg then s.neg else s))
  | _ => []

/-- The gradient of a range as binary32 words, and the number of elements that overflowed (R169). -/
def convertGrad (fmt w : Nat) (p : Bytes) : List Word × Nat :=
  let r := (gradVals fmt w p).map convertVal
  (r.map (·.1), (r.map (·.2)).sum)

/-- The elements of a range's first `n` lanes that overflow as they are converted; tail elements are ignored (R56, R169). -/
def gradOverflows (fmt w n : Nat) (p : Bytes) : Nat := (((gradVals fmt w p).take n).map (fun v => (convertVal v).2)).sum

end Sys2Proof.Machine
end

