-- ==== Sys2Proof/Machine/Array.lean ====
section
/-! DEFINITION. The numeric array: block scales (R208), the accumulation procedure (R210, R211), second-level scales (R209)
and operand unpacking (R207). The sums of squares of the partial norms use the same procedure (R215). -/

namespace Sys2Proof.Machine

/-- An operand as it enters a cell: a special, or the pieces of its magnitude, most significant first (R206, R211). -/
inductive Operand where
  | nan
  | inf (neg : Bool)
  | pieces (neg : Bool) (zero : Bool) (split : Bool) (ps : List (Nat × Int))
  deriving DecidableEq, Repr

/-- A binary32 operand split into three pieces (R211). -/
def splitOperand : Val → Operand
  | .nan => .nan
  | .inf n => .inf n
  | .fin n m e => .pieces n (m == 0) true [(m / 2 ^ 16, e + 16), (m / 2 ^ 8 % 2 ^ 8, e + 8), (m % 2 ^ 8, e)]

/-- An operand that is not split (R211). -/
def wholeOperand : Val → Operand
  | .nan => .nan
  | .inf n => .inf n
  | .fin n m e => .pieces n (m == 0) false [(m, e)]

/-- A term of the accumulation (R210): a special, or a signed product. -/
inductive Term where
  | nan
  | inf (neg : Bool)
  | fin (neg : Bool) (mag : Nat) (exp : Int)
  deriving DecidableEq, Repr

/-- The passes of R211 that a pair of pieces belongs to: in the 6-pass form the pairs (m,l), (l,m) and (l,l) are dropped. -/
def passKept (nine : Bool) (i j : Nat) : Bool := nine || decide (i + j ≤ 2)

/-- The terms of one product (R210, R211). -/
def productTerms (nine : Bool) (a b : Operand) : List Term :=
  match a, b with
  | .nan, _ => [.nan]
  | _, .nan => [.nan]
  | .inf x, .inf y => [.inf (x != y)]
  | .inf x, .pieces n z _ _ => if z then [.nan] else [.inf (x != n)]
  | .pieces n z _ _, .inf y => if z then [.nan] else [.inf (n != y)]
  | .pieces n1 _ s1 p1, .pieces n2 _ s2 p2 =>
    p1.zipIdx.flatMap (fun x => p2.zipIdx.filterMap (fun y =>
      if passKept (nine || !(s1 && s2)) x.2 y.2
      then some (.fin (n1 != n2) (x.1.1 * y.1.1) (x.1.2 + y.1.2)) else none))

/-- floor(m · 2^k) for any integer k (R210). -/
def shiftFloor (m : Nat) (k : Int) : Nat := if k ≥ 0 then m * 2 ^ k.toNat else m / 2 ^ (-k).toNat

/-- The value gv of a group of terms (R210). -/
def groupValue (ts : List Term) : Val :=
  if ts.any (· == .nan) || (ts.contains (.inf true) && ts.contains (.inf false)) then .nan
  else if ts.contains (.inf true) then .inf true
  else if ts.contains (.inf false) then .inf false
  else
    let live := ts.filterMap (fun t => match t with
      | .fin n m e => if m = 0 then none else some (n, m, e)
      | _ => none)
    match live with
    | [] => .fin false 0 0
    | t :: rest =>
      let e : Int := rest.foldl (fun a x => max a (x.2.2 + 16)) (t.2.2 + 16)
      let w : Int := live.foldl (fun a x =>
        let v : Int := (shiftFloor x.2.1 (x.2.2 - e + 70) : Nat)
        if x.1 then a - v else a + v) 0
      .fin (decide (w < 0)) w.natAbs (e - 70)

/-- One group joins the accumulator, with one rounding (R210). -/
def accumulate (acc : Word) (ts : List Term) : Word := toF32 ((f32Val acc).add (groupValue ts))

/-- The accumulation of a list of operand pairs in groups of 32 (R210). -/
def dotProduct (nine : Bool) (acc : Word) (ps : List (Operand × Operand)) : Word :=
  (piecesOf 32 ps).foldl (fun a g => accumulate a (g.flatMap (fun p => productTerms nine p.1 p.2))) acc

/-- A matrix of binary32 words by rows. -/
abbrev Mat := List (List Word)

/-- The transpose of a matrix of `c` columns. -/
def transpose {α : Type} (d : α) (c : Nat) (m : List (List α)) : List (List α) :=
  (List.range c).map (fun j => m.map (fun r => r.getD j d))

/-- The array product of two binary32 matrices, binary32 out (R210, R212). -/
def matMul (nine : Bool) (a b : Mat) : Mat :=
  let n := match b with | [] => 0 | r :: _ => r.length
  let bt := (transpose 0 n b).map (fun c => c.map (fun w => splitOperand (f32Val w)))
  a.map (fun r =>
    let ra := r.map (fun w => splitOperand (f32Val w))
    bt.map (fun c => dotProduct nine 0 (ra.zip c)))

/-- The square of each element joins a partial norm, in groups of 32, 9 passes (R215). -/
def sumSquares (acc : Word) (xs : List Word) : Word :=
  dotProduct true acc (xs.map (fun w => let o := splitOperand (f32Val w); (o, o)))

/-- An operand descriptor of a submitted job (R216). -/
structure ArrayDesc where
  format     : Nat
  scale      : Nat
  block      : Nat
  across     : Bool
  second     : Bool
  reserved   : Bool
  rows       : Nat
  cols       : Nat
  dataAddr   : Nat
  scaleAddr  : Nat
  secondAddr : Nat
  deriving DecidableEq, Repr

/-- The fields of the 24 descriptor bytes (R216); `reserved` says some reserved field is non-zero. -/
def arrayDescOf (b : Bytes) : ArrayDesc :=
  { format := field 0 1 b, scale := field 1 1 b, block := field 2 1 b, across := bit (field 3 1 b) 0,
    second := bit (field 3 1 b) 1, reserved := decide (field 3 1 b / 4 ≠ 0) || decide (field 20 4 b ≠ 0),
    rows := field 4 2 b, cols := field 6 2 b, dataAddr := field 8 4 b, scaleAddr := field 12 4 b,
    secondAddr := field 16 4 b }

/-- The width of an operand element in bits (R205, R216). -/
def arrayElemBits : Nat → Nat
  | 0 => 32 | 1 => 16 | 2 => 8 | 3 => 8 | 4 => 6 | 5 => 6 | _ => 4

/-- Bytes of one row of an operand: a row starts on a whole byte (R207). -/
def arrayRowBytes (d : ArrayDesc) : Nat := cdiv (d.cols * arrayElemBits d.format) 8

/-- The value of an element code (R205). -/
def arrayElemVal (fmt v : Nat) : Val :=
  match fmt with
  | 0 => f32Val (w32 v)
  | 1 => bf16Val v
  | 2 => e4m3Val v
  | 3 => e5m2Val v
  | 4 => e3m2Val v
  | 5 => e2m3Val v
  | _ => e2m1Val v

/-- An element under its block scale (R208). -/
def scaleElem (kind code : Nat) (v : Val) : Val :=
  match kind with
  | 0 => v
  | 1 => if code = 255 then .nan else match v with
    | .fin n m e => .fin n m (e + code - 127)
    | x => x
  | _ =>
    if code ≥ 128 ∨ code = 127 then .nan
    else match e4m3Val code with
      | .fin _ ms es => if ms = 0 then .fin false 0 0 else match v with
        | .fin n m e => .fin n (m * ms) (e + es)
        | x => x
      | _ => .nan

/-- The operand elements of a descriptor from its data and scale bytes, row by row. For B the contraction runs down the
columns, so ALONG is the row direction for A and the column direction for B (R208). -/
def arrayElems (d : ArrayDesc) (isB : Bool) (data scales : Bytes) : List (List Operand) :=
  let rb := arrayRowBytes d
  let w := arrayElemBits d.format
  let byRow := if isB then d.across else !d.across
  let blk := 2 ^ d.block
  (List.range d.rows).map (fun r =>
    let row := slice (r * rb) rb data
    (List.range d.cols).map (fun c =>
      let v := arrayElemVal d.format (unpackField w c row)
      let idx := if byRow then r * (d.cols / blk) + c / blk else (r / blk) * d.cols + c
      let v' := scaleElem d.scale ((scales.getD idx 0).toNat) v
      if d.format = 0 then splitOperand v' else wholeOperand v'))

/-- The number of block-scale bytes of an operand (R208). -/
def arrayScaleCount (d : ArrayDesc) : Nat := if d.scale = 0 then 0 else d.rows * d.cols / 2 ^ d.block

/-- An output under the second-level scales, rows first (R209). -/
def applySecond (s : Option Word) (v : Word) : Word := match s with | none => v | some x => fMul v x

/-- A submitted job's output (R209, R210, R216). -/
def arrayJob (nine : Bool) (a b : ArrayDesc) (ad as_ : Bytes) (bd bs : Bytes) (sa sb : Option (List Word)) : Mat :=
  let ea := arrayElems a false ad as_
  let eb := transpose Operand.nan b.cols (arrayElems b true bd bs)
  ea.mapIdx (fun r ra => eb.mapIdx (fun c cb =>
    applySecond (sb.map (fun l => l.getD c 0)) (applySecond (sa.map (fun l => l.getD r 0))
      (dotProduct nine 0 (ra.zip cb)))))

end Sys2Proof.Machine
end

