-- ==== Sys2Proof/Machine/Precond.lean ====
section
/-! DEFINITION. The Kronecker preconditioner: parameter words of a block (R182), the stages of a tile (R195) and the
refresh of its roots (R196). -/

namespace Sys2Proof.Machine

/-- The preconditioner words of a parameter block (R182). -/
structure PcWords where
  on        : Bool
  tr        : Nat
  tc        : Nat
  interval  : Nat
  rootEvery : Nat
  rootLag   : Nat
  iters     : Nat
  beta      : Word
  eps       : Word
  factorCls : Nat
  scratchCls : Nat
  deriving DecidableEq, Repr

/-- The words 20 to 28 of a block (R182). -/
def pcWords (b : List Word) : PcWords :=
  let w (k : Nat) := (b.getD k 0).toNat
  { on := (w 20).testBit 0, tr := 2 ^ bits (w 21) 15 8, tc := 2 ^ bits (w 21) 7 0, interval := w 22, rootEvery := w 23,
    rootLag := w 24, iters := w 25, beta := b.getD 26 0, eps := b.getD 27 0, factorCls := bits (w 28) 7 0,
    scratchCls := bits (w 28) 15 8 }

/-- Whether a parameter block keeps the limits of R182: those of the PC words always, that of the tile where PRECOND is set (log
entry 21). -/
def paramsOk (b : List Word) : Bool :=
  let w (k : Nat) := (b.getD k 0).toNat
  decide (w 29 = 0) && decide (w 30 = 0) && decide (1 ≤ w 22) && decide (w 22 ≤ 65535) && decide (1 ≤ w 23) &&
  decide (w 23 % w 22 = 0) && decide (1 ≤ w 24) && decide (w 24 ≤ w 22) && decide (1 ≤ w 25) && decide (w 25 ≤ 64) &&
  (!(w 20).testBit 0 ||
    (decide (5 ≤ bits (w 21) 15 8) && decide (bits (w 21) 15 8 ≤ 8) && decide (5 ≤ bits (w 21) 7 0) &&
     decide (bits (w 21) 7 0 ≤ 8)))

/-- One in binary32. -/
def fOne : Word := 0x3F800000#32

/-- The identity matrix. -/
def eye (n : Nat) : Mat := (List.range n).map (fun i => (List.range n).map (fun j => if i = j then fOne else 0))

/-- An elementwise operation on two matrices. -/
def zipMat (f : Word → Word → Word) (a b : Mat) : Mat := List.zipWith (List.zipWith f) a b

/-- A matrix times a scalar, each element rounded. -/
def scaleMat (c : Word) (a : Mat) : Mat := a.map (·.map (fMul c))

/-- c of R196: the largest row sum of magnitudes, columns ascending. -/
def maxRowSum (a : Mat) : Word := (a.map (fun r => r.foldl (fun s x => fAdd s (fAbs x)) 0)).foldl fMax 0

/-- One coupled Newton iteration (R196). -/
def rootIter (nine : Bool) (n : Nat) (x m : Mat) : Mat × Mat :=
  let five := scaleMat 0x40A00000#32 (eye n)
  let t := (zipMat fSub five m).map (·.map (fun w => fMul w 0x3E800000#32))
  let t2 := matMul nine t t
  (matMul nine x t, matMul nine (matMul nine t2 t2) m)

/-- The iterations of R196. -/
def rootIters (nine : Bool) (n : Nat) : Nat → Mat → Mat → Mat
  | 0, x, _ => x
  | k + 1, x, m => let r := rootIter nine n x m; rootIters nine n k r.1 r.2

/-- The inverse fourth root of a factor (R196). -/
def invRoot (nine : Bool) (eps : Word) (iters : Nat) (f : Mat) : Mat :=
  let n := f.length
  let a := zipMat fAdd f (scaleMat eps (eye n))
  let c := maxRowSum a
  let x := rootIters nine n iters (eye n) (scaleMat (fDiv fOne c) a)
  scaleMat (fDiv fOne (fSqrt (fSqrt c))) x

/-- P of stage 3 (R195). -/
def precondition (nine : Bool) (lx gc rx : Mat) : Mat := matMul nine (matMul nine lx gc) rx

/-- A factor after stage 5: β F + (1 − β) N (R195). -/
def updateFactor (beta : Word) (f n : Mat) : Mat := zipMat fAdd (scaleMat beta f) (scaleMat (fSub fOne beta) n)

/-- Both factors after stage 5 (R195). -/
def updateFactors (nine : Bool) (beta : Word) (tc : Nat) (lf rf gc : Mat) : Mat × Mat :=
  let gt := transpose 0 tc gc
  (updateFactor beta lf (matMul nine gc gt), updateFactor beta rf (matMul nine gt gc))

/-- A row-major matrix from words, and back (R193). -/
def matOf (cols : Nat) (ws : List Word) : Mat := piecesOf cols ws
def wordsOfBytes (b : Bytes) : List Word := (piecesOf 4 b).map (fun x => w32 (leNat x))
def bytesOfWords (l : List Word) : Bytes := l.flatMap (fun w => natLe 4 w.toNat)

/-- The four matrices of a factor block in order LF, RF, LX, RX (R193). -/
def factorBlock (tr tc : Nat) (b : Bytes) : Mat × Mat × Mat × Mat :=
  let ws := wordsOfBytes b
  (matOf tr (ws.take (tr * tr)), matOf tc ((ws.drop (tr * tr)).take (tc * tc)),
   matOf tr ((ws.drop (tr * tr + tc * tc)).take (tr * tr)), matOf tc ((ws.drop (2 * tr * tr + tc * tc)).take (tc * tc)))

/-- The bytes of a factor block (R193). -/
def factorBytes (lf rf lx rx : Mat) : Bytes := bytesOfWords (lf.flatten ++ rf.flatten ++ lx.flatten ++ rx.flatten)

end Sys2Proof.Machine
end

