-- ==== Sys2Proof/Machine/Serve.lean ====
section
/-! DEFINITION. Where an instance finds its chunks and rows, whom it serves, and the fragments it hands out
(R63, R100, R103, R124, R145, R146, R153, R159, R259, R260). -/

namespace Sys2Proof.Machine

/-- Whether a context has a transition still open at this instance (R157, R158). -/
def Inst.transitionOpen (i : Inst) (x : Nat) : Bool :=
  i.memb.moving.any (fun m => m.ctx = x) || i.memb.incoming.any (fun p => p.1 = x) ||
    i.memb.pushes.any (fun p => p.chunk.ctx = x) || i.cod.building.any (fun b => b.ctx = x)

/-- TRANSITION_DONE reported once nothing is left to do (R157). -/
def Inst.checkDone (x : Nat) (i : Inst) : Inst :=
  if i.memb.due.contains x && !i.transitionOpen x then
    ({ i with memb := { i.memb with done := insertNat x i.memb.done, due := i.memb.due.filter (· ≠ x) } }).event 0x1602 (some x) []
  else i
def Inst.checkAllDone (i : Inst) : Inst := i.memb.due.foldl (fun i x => i.checkDone x) i

/-- The range under a caravan whose source this instance is (R145). -/
def Inst.movingOf (i : Inst) (x q : Nat) : Option Moving :=
  i.memb.moving.find? (fun m => decide (m.ctx = x) && decide (m.q = q))

/-- The old fragments of a doubly coded range (R146). -/
def Inst.dualOf (i : Inst) (x q : Nat) : Option Dual :=
  i.memb.dual.find? (fun d => decide (d.ctx = x) && decide (d.q = q))

/-- Whether a range is being received and has not cut over (R153). -/
def Inst.isIncoming (i : Inst) (x q : Nat) : Bool := i.memb.incoming.contains (x, q)

/-- The colony that supplies the stand-in of a range: the old one while doubly coded (R124, R146). -/
def Inst.serveColony (i : Inst) (m : MapImage) (x q : Nat) : Option (StripeRec × Nat) :=
  match (i.dualOf x q).bind (fun d => (d.frags.find? (fun f => f.1.cls = m.master)).map Prod.snd) with
  | some f => (m.stripe f.stripe).map (fun s => (s, s.geom.colonyOf f.index))
  | none => m.masterColony q

/-- The stand-in of a range, under the lost set (R124). -/
def Inst.rangeStandIn (i : Inst) (m : MapImage) (x q : Nat) : Option Home :=
  (i.serveColony m x q).bind (fun p => m.standIn (i.ctx x).memb.lost p.1 p.2)

/-- The transition of a range that another home sources (R145). -/
def Inst.remoteOf (i : Inst) (x q : Nat) : Option Remote :=
  i.memb.remote.find? (fun r => decide (r.ctx = x) && decide (r.q = q))

/-- Whether the source of such a transition is lost (R159). -/
def Inst.sourceLost (i : Inst) (r : Remote) : Bool := r.gone || isLost (i.ctx r.ctx).memb.lost r.home

/-- A home heard to serve a range has cut over (R155, R159; log entry 99). -/
def Inst.heardFrom (x : Nat) (q : Option Nat) (src : Home) (i : Inst) : Inst :=
  match q with
  | some q => { i with memb := { i.memb with
      remote := i.memb.remote.filter (fun r => !(decide (r.ctx = x) && decide (r.q = q) && decide (r.dst = src))) } }
  | none => i

/-- As whom this instance serves a range: `some none` as its home, `some (some l)` as stand-in for `l` (R13, R124, R145). -/
def Inst.serves (i : Inst) (x q : Nat) : Option (Option Home) :=
  match i.image x with
  | none => none
  | some m =>
    match i.movingOf x q with
    | some mv => some mv.standin
    | none =>
      if i.isIncoming x q || i.memb.departed.any (fun d => decide (d.1 = x) && decide (d.2.1 = q)) then none
      else match i.remoteOf x q, m.homeOf q with
        | some r, _ => if i.sourceLost r && i.rangeStandIn m x q == some i.self then some (some r.home) else none
        | none, none => none
        | none, some h =>
          if h = i.self then some none
          else if isLost (i.ctx x).memb.lost h && i.rangeStandIn m x q == some i.self then some (some h)
          else none

/-- The slot of a chunk this instance homes, receives or still sources (R63, R145). -/
def Inst.chunkSlot (i : Inst) (c : ChunkId) : Option Nat :=
  match (i.movingOf c.ctx c.q).bind (fun m => (m.slots.find? (fun s => s.1 = c)).map Prod.snd) with
  | some s => some s
  | none => (i.image c.ctx).bind (fun m => m.slotAt m.extents i.self c.cls c.q c.k)

/-- The data fragments a chunk is: under the committed map, and under the old stripe while doubly coded (R63, R146). -/
def Inst.chunkFrags (i : Inst) (c : ChunkId) : List FragId :=
  match i.image c.ctx with
  | none => []
  | some m =>
    (m.fragOf c.cls c.q c.k).toList ++
      (match i.dualOf c.ctx c.q with
       | some d => (d.frags.filter (fun f => f.1 = c)).map Prod.snd
       | none => [])

/-- The holders of one data fragment, by protection class (R30, R90, R114). -/
def MapImage.fragTargets (m : MapImage) (prot : Nat) (f : FragId) : List (FragId × Home) :=
  match m.stripe f.stripe with
  | none => []
  | some s =>
    let col := s.geom.colonyOf f.index
    let fr (role index : Nat) : List (FragId × Home) :=
      match m.fragHome f.stripe role index with
      | some h => [({ f with role := role, index := index }, h)]
      | none => []
    if prot = 0 then fr 1 col ++ ((List.range s.geom.r).map (· + 1)).flatMap (fr 2)
    else if prot = 1 then fr 3 col
    else []

/-- The holders a chunk's changes are owed to: those of both stripes while doubly coded (R30, R146). -/
def Inst.chunkTargets (i : Inst) (c : ChunkId) : List (FragId × Nat × Home) :=
  match i.image c.ctx with
  | none => []
  | some m =>
    match m.cls c.cls with
    | none => []
    | some cr => (i.chunkFrags c).flatMap (fun f => (m.fragTargets cr.prot f).map (fun t => (t.1, f.index, t.2)))

/-- The chunk that lies at a data position of a row, under the committed map or an old stripe. -/
def Inst.chunkOfFrag (i : Inst) (x : Nat) (stripe row pos : Nat) : Option ChunkId :=
  match i.image x with
  | none => none
  | some m =>
    match m.chunkAt x stripe row pos with
    | some c => some c
    | none => i.memb.dual.findSome? (fun d =>
        if d.ctx = x then (d.frags.find? (fun f => decide (f.2.stripe = stripe) && decide (f.2.row = row) &&
          decide (f.2.index = pos))).map Prod.fst else none)

/-- A parameter block of a context (R182). -/
def Inst.paramBlock (i : Inst) (x b : Nat) : Option (List Word) := i.opt.params.find (x * 32 + b)

/-- What updates as one: a range, or a tile's ranges with its factor and scratch blocks (R192 to R194). -/
structure UpdUnit where
  layer   : LayerRec
  ranges  : List Nat
  tile    : Nat
  pc      : Option PcWords
  factor  : List ChunkId
  scratch : List ChunkId
  deriving DecidableEq, Repr

/-- The chunks of a block of a layer (R63, R65). -/
def MapImage.blockChunks (m : MapImage) (x layer cls t : Nat) : List ChunkId :=
  match (m.layerBlocks layer cls)[t]? with
  | some b => (List.range b.chunks).map (fun k => { ctx := x, cls := cls, q := b.first + k, k := 0 })
  | none => []

/-- The update unit of a range (R192, R194). -/
def Inst.unitOf (i : Inst) (x q : Nat) : Option UpdUnit :=
  match i.image x with
  | none => none
  | some m =>
    match m.layerOf q with
    | none => none
    | some l =>
      let pc := (i.paramBlock x l.paramBlock).map pcWords
      match pc with
      | some w =>
        if w.on && decide (m.width ≤ w.tr * w.tc) && decide (l.paramCount % (w.tr * w.tc) = 0) then
          let n := w.tr * w.tc / m.width
          let t := (q - m.layerFirst l) / n
          some { layer := l, ranges := (List.range n).map (fun k => m.layerFirst l + t * n + k), tile := t, pc := some w,
                 factor := m.blockChunks x l.id w.factorCls t, scratch := m.blockChunks x l.id w.scratchCls t }
        else some { layer := l, ranges := [q], tile := 0, pc := none, factor := [], scratch := [] }
      | none => some { layer := l, ranges := [q], tile := 0, pc := none, factor := [], scratch := [] }

/-- The ranges a chunk's commits count for: its own, or every range of its block's tile (R194). -/
def Inst.chunkRanges (m : MapImage) (c : ChunkId) (i : Inst) : List Nat :=
  match m.cls c.cls with
  | some r =>
    if r.kind = 0 then [c.q]
    else match m.layer (m.chunkLayer c) with
      | none => []
      | some l =>
        match (m.layerBlocks l.id c.cls).findIdx? (fun b => decide (b.first ≤ c.q) && decide (c.q < b.first + b.chunks)),
            (i.paramBlock c.ctx l.paramBlock).map pcWords with
        | some t, some w =>
          let n := w.tr * w.tc / m.width
          (List.range n).map (fun k => m.layerFirst l + t * n + k)
        | _, _ => []
  | none => []

/-- As whom this instance serves a chunk: an ELEMENT chunk with its range, a BLOCK chunk by the home of its run and, where that is
lost, the stand-in of the colony its stripe gives it (R57, R124, R152). -/
def Inst.servesChunk (m : MapImage) (c : ChunkId) (i : Inst) : Option (Option Home) :=
  match m.cls c.cls, m.runOf c.cls c.q with
  | some r, some u =>
    if r.kind = 0 then i.serves c.ctx c.q
    else match m.homeAt u.homeId with
      | none => none
      | some h =>
        if h = i.self then some none
        else if !isLost (i.ctx c.ctx).memb.lost h then none
        else if (match m.stripe u.stripe with
            | some s => m.standIn (i.ctx c.ctx).memb.lost s (s.geom.colonyOf u.position) == some i.self
            | none => ((i.chunkRanges m c).head?).any (fun q => i.serves c.ctx q == some (some h))) then some (some h)
        else none
  | _, _ => none

/-- The first range of a range's update unit. -/
def Inst.unitHead (i : Inst) (x q : Nat) : Nat := match i.unitOf x q with | some u => u.ranges.headD q | none => q

/-- The backlog records of a chunk, oldest first (R103). -/
def Inst.recordsOf (i : Inst) (c : ChunkId) : List Backlog := i.cod.backlog.filter (fun r => r.chunk = c)

/-- The coding lag of a chunk (R25, R103). -/
def Inst.lagOf (i : Inst) (c : ChunkId) : Nat := (i.recordsOf c).length

/-- The delta of a record for a granule: zero where suppressed (R89). -/
def Backlog.granule (r : Backlog) (g : Nat) : Bytes :=
  if r.mask.testBit g then r.delta.getD ((bitsSet g r.mask).length) [] else List.replicate 256 0

/-- The records to be taken off a chunk at `cur` to reach version `v`; none where the backlog does not reach (R103). -/
def undoTo (cur v : Nat) (rs : List Backlog) : Option (List Backlog) :=
  if cur = v then some []
  else match rs.findIdx? (fun r => r.prev = v) with
    | some k => some (rs.drop k)
    | none => none

/-- What is being repaired (R243 to R245). -/
def Inst.repairing (i : Inst) (slot : Nat) : Bool :=
  i.flt.jobs.any (fun j => match j.kind with
    | .chunkRepair s _ _ => s == slot
    | .shadowRepair s _ => s == slot
    | _ => false)

/-- Whether a row is being rebuilt (R244). -/
def Inst.rowRebuilding (i : Inst) (x : Nat) (f : FragId) : Bool :=
  i.flt.jobs.any (fun j => decide (j.ctx = x) && (match j.kind with | .rowRepair g _ false => g == f | _ => false))

/-- The answer to a fragment read (R260, R264). -/
structure FragAns where
  version  : Nat
  digest   : BitVec 64
  attr     : Nat
  mask     : Nat
  granules : List Bytes
  poison   : Nat
  vector   : List VecEntry
  deriving DecidableEq, Repr

/-- How a fragment read ends: served, answered with a status, to wait, or to wait for a repair it has started. -/
inductive FragRes where
  | served (a : FragAns)
  | status (st : Nat)
  | wait
  | repairChunk (slot line : Nat)
  | repairRow (f : FragId) (lines : List Nat)
  deriving DecidableEq, Repr

/-- Granules of own data at a version (R103, R259); those of a LOST_UNREPAIRED chunk are zeros with POISON (R142). -/
def Inst.serveData (c : ChunkId) (slot mask v : Nat) (i : Inst) : Inst × FragRes :=
  if i.repairing slot then (i, .wait)
  else
    let r := i.readRec slot
    if r.2.lost then
      (r.1, .served { version := r.2.version, digest := r.2.digest, attr := r.2.attr, mask := mask, vector := [],
                      granules := (bitsSet 16 mask).map (fun _ => List.replicate 256 0), poison := 2 ^ (bitsSet 16 mask).length - 1 })
    else match undoTo r.2.version v (r.1.recordsOf c) with
    | none => (r.1, .status St.versionUnavailable)
    | some undo =>
      let gs := bitsSet 16 mask
      let d := r.1.readGranules slot gs
      match (d.1.mem.badLines slot gs).head?, d.2.any (fun b => b.isNone) with
      | some l, true => (d.1, .repairChunk slot l)
      | _, _ =>
        let out := (gs.zip d.2).map (fun p => undo.foldl (fun b u => xorBytes b (u.granule p.1)) (p.2.getD []))
        (d.1, .served { version := v, digest := r.2.digest, attr := r.2.attr, mask := mask, granules := out,
                        poison := if r.2.poison then 2 ^ out.length - 1 else 0, vector := [] })

/-- The copy of a chunk a stand-in keeps, poisoned where a staging line of it is marked (R135, R139). -/
def Inst.copyOf (c : ChunkId) (i : Inst) : Option Copy :=
  (i.flt.copies.find? (fun k => k.chunk = c)).map (fun k =>
    if i.stagedPoison c.copied then { k with info := { k.info with attr := k.info.attr ||| 1 } } else k)

/-- Granules of a copy a stand-in keeps (R125, R126, R135). -/
def Inst.serveCopy (c : Copy) (mask v : Nat) (i : Inst) : FragRes :=
  match undoTo c.info.version v (i.recordsOf c.chunk) with
  | none => .status St.versionUnavailable
  | some undo =>
    let gs := bitsSet 16 mask
    let out := gs.map (fun g => undo.foldl (fun b u => xorBytes b (u.granule g)) (slice (256 * g) 256 c.bytes))
    .served { version := v, digest := c.info.digest, attr := c.info.attr, mask := mask, granules := out,
              poison := if c.info.poison then 2 ^ out.length - 1 else 0, vector := [] }

/-- The open step of a member at a row (R99). -/
def Inst.openOf (i : Inst) (x : Nat) (f : FragId) (member : Nat) : Option OpenStep :=
  i.cod.opens.find? (fun o => decide (o.ctx = x) && decide (o.frag = f) && decide (o.member = member))
def Inst.opensAt (i : Inst) (x : Nat) (f : FragId) : List OpenStep :=
  i.cod.opens.filter (fun o => decide (o.ctx = x) && decide (o.frag = f))

/-- The bytes an open step put into a granule; zero where it put none. -/
def OpenStep.granule (o : OpenStep) (g : Nat) : Bytes :=
  if o.mask.testBit g && !o.poisoned then o.kept.getD ((bitsSet g o.mask).length) (List.replicate 256 0)
  else List.replicate 256 0

/-- Where the granules of a held row lie (R63, R97, R114): slot and first granule, and how many it has. -/
structure HeldRow where
  slot  : Nat
  first : Nat
  count : Nat
  width : Nat
  place : RowPlace
  deriving DecidableEq, Repr

/-- The element width of a SHADOW row: that of the class at its row (R114). -/
def MapImage.shadowWidth (m : MapImage) (stripe col row : Nat) : Nat := (m.shadowWidths stripe col row 1).headD 4

/-- A row an image gives an instance to hold. -/
def MapImage.heldRow (m : MapImage) (inst : Nat) (f : FragId) : Option HeldRow :=
  match m.extent inst (kindOfRole f.role) f.index f.stripe f.row, m.rowPlace inst f with
  | some e, some p =>
    if f.role = 3 then
      let w := m.shadowWidth f.stripe f.index f.row
      let n := subRowPlace w (f.row - e.firstRow)
      some { slot := e.slotBase + n.1, first := n.2 / 256, count := subRowBytes w / 256, width := w, place := p }
    else some { slot := p.slot, first := 0, count := 16, width := 0, place := p }
  | _, _ => none

/-- A row this instance holds under its committed map. -/
def Inst.heldRow (i : Inst) (x : Nat) (f : FragId) : Option HeldRow := (i.image x).bind (fun m => m.heldRow i.view.idx f)

/-- Stored granules of a held row. -/
def Inst.rowGranules (h : HeldRow) (gs : List Nat) (i : Inst) : Inst × List (Option Bytes) :=
  i.readGranules h.slot (gs.map (· + h.first))

/-- A row's table entry while it is BUILDING (R151). -/
def Inst.buildingAt (i : Inst) (x : Nat) (f : FragId) : Option Building :=
  i.cod.building.find? (fun b => decide (b.ctx = x) && decide (b.frag = f))

/-- Whether a row answers DAMAGED (R99, R244, R245). -/
def Inst.rowDamaged (i : Inst) (x : Nat) (f : FragId) : Bool :=
  i.cod.damaged.contains (x, f) || i.cod.repoison.contains (x, f) || (i.opensAt x f).any (fun o => o.poisoned)

/-- A held row at committed state, with its vector for a parity (R100, R259, R260). -/
def Inst.serveRow (x : Nat) (f : FragId) (mode mask : Nat) (i : Inst) : Inst × FragRes :=
  match i.heldRow x f with
  | none => (i, .status St.notHeld)
  | some h =>
    if (i.buildingAt x f).isSome then (i, .status St.building)
    else if i.rowDamaged x f then (i, .status St.damaged)
    else if i.rowRebuilding x f then (i, .wait)
    else
      let v := if f.role = 3 then (i, []) else i.readVec h.place
      let attr := if v.2.any (fun e => e.committed && e.reconstructed) then 2 else 0
      if mode = 2 then
        (v.1, .served { version := 0, digest := 0, attr := attr, mask := 0, granules := [], poison := 0, vector := v.2 })
      else
        let gs := (bitsSet 16 mask).filter (· < h.count)
        let d := v.1.rowGranules h gs
        let last := if f.role = 3 then d.1.rowGranules h [h.count - 1] else (d.1, [])
        if (d.2 ++ last.2).any (fun b => b.isNone) then
          (last.1, .repairRow f (last.1.mem.badLines h.slot ((gs ++ [h.count - 1]).map (· + h.first))))
        else
          let os := i.opensAt x f
          let out := fun (gs : List Nat) (ds : List (Option Bytes)) =>
            (gs.zip ds).map (fun p => os.foldl (fun b o => xorBytes b (o.granule p.1)) (p.2.getD []))
          let ver := if f.role = 3 then field (subRowVersion h.width % 256) 4 ((out [h.count - 1] last.2).headD []) else 0
          (last.1, .served { version := ver, digest := 0, attr := attr, mask := gs.foldl (fun a g => a ||| 2 ^ g) 0,
                             granules := out gs d.2, poison := 0, vector := v.2 })

/-- What this instance itself can supply of a fragment, as its home or holder (R259). -/
def Inst.serveLocal (x : Nat) (f : FragId) (mode mask v : Nat) (i : Inst) : Inst × FragRes :=
  if f.role = 0 then
    match i.chunkOfFrag x f.stripe f.row f.index with
    | none => (i, .status St.notHeld)
    | some c =>
      match i.chunkSlot c with
      | some s => i.serveData c s mask v
      | none =>
        match i.copyOf c with
        | some k => (i, i.serveCopy k mask v)
        | none => (i, .status St.notHeld)
  else i.serveRow x f mode mask

/-- The ranges of the runs of the MASTER class that keep a property, with their new home. -/
def MapImage.rangesOf (m : MapImage) (p : RunRec → Bool) : List (Nat × Home) :=
  (m.runs.filter (fun r => r.cls == m.master && p r)).flatMap (fun r =>
    match m.homeAt r.homeId with
    | some h => (List.range r.count).map (fun k => (r.firstRange + k, h))
    | none => [])
/-- The coded chunks this instance serves: those of the ranges it serves, and those of blocks, with the lost home it stands in
for (R57, R124, R152). -/
def Inst.servedCoded (x : Nat) (n : MapImage) (i : Inst) : List (ChunkId × Option Home) :=
  let ranges := (n.rangesOf (fun _ => true)).flatMap (fun p => match i.serves x p.1 with
    | some st => ((n.chunksOf x p.1).filter (fun c => n.protOf c ≠ 2)).map (fun c => (c, st))
    | none => [])
  let blocks := (n.runs.filter (fun r => r.stripe ≠ 0xFFFFFFFF && !n.elements.any (fun c => c.id == r.cls))).flatMap (fun r =>
    (List.range r.count).filterMap (fun k =>
      let c : ChunkId := { ctx := x, cls := r.cls, q := r.firstRange + k, k := 0 }
      (i.servesChunk n c).map (fun st => (c, st))))
  ranges ++ blocks

/-- The holders of a chunk under an image alone (R90, R114). -/
def MapImage.targetsOf (m : MapImage) (c : ChunkId) : List (FragId × Nat × Home) :=
  match m.cls c.cls, m.fragOf c.cls c.q c.k with
  | some r, some f => (m.fragTargets r.prot f).map (fun t => (t.1, f.index, t.2))
  | _, _ => []

end Sys2Proof.Machine
end

