-- ==== Sys2Proof/Machine/Compute.lean ====
section
/-! DEFINITION. What an update writes, as a function of its inputs alone: the program over each range, and the stages of a
preconditioned tile (R27, R174, R180, R193 to R198). -/

namespace Sys2Proof.Machine

/-- The inputs of R198: the unit, the bytes of its chunks, its gradients, its scalars and its due roots; `rooted` says that a refresh has
been installed in its factor block (R193). -/
structure UnitIn where
  m      : MapImage
  ctx    : Nat
  step   : Nat
  prog   : Program
  params : List Word
  scal   : List Word
  clip   : Word
  unit   : UpdUnit
  grads  : List (Nat × Nat × Bytes)
  bytes  : List (ChunkId × Bytes)
  roots  : Option (Mat × Mat)
  rooted : Bool
  deriving DecidableEq, Repr

/-- The chunks written, with their bytes, and the factors a refresh starts from (R195). -/
structure UnitOut where
  chunks  : List (ChunkId × Bytes)
  refresh : Option (Mat × Mat)
  deriving DecidableEq, Repr

/-- The bytes of a chunk among the inputs. -/
def UnitIn.get (u : UnitIn) (c : ChunkId) : Bytes :=
  ((u.bytes.find? (fun p => p.1 = c)).map Prod.snd).getD (List.replicate 4096 0)

/-- The gradient of a range in binary32 (R169). -/
def UnitIn.grad (u : UnitIn) (q : Nat) : List Word :=
  match u.grads.find? (fun g => g.1 = q) with
  | some g => (convertGrad g.2.1 u.m.width g.2.2).1
  | none => List.replicate u.m.width 0

/-- The classes of a range as the program sees them (R180). -/
def UnitIn.bufs (u : UnitIn) (q : Nat) : List ClassBuf :=
  u.m.elements.map (fun r =>
    { cls := r.id, fmt := r.format,
      elems := elemsOf r.format (((List.range (u.m.perRange r.id)).map (fun k =>
        u.get { ctx := u.ctx, cls := r.id, q := q, k := k })).flatten) })

/-- The chunks a range's classes are written back to (R27, R55). -/
def UnitIn.unbuf (u : UnitIn) (q : Nat) (bs : List ClassBuf) : List (ChunkId × Bytes) :=
  bs.flatMap (fun b => (piecesOf 4096 (bytesOfElems b.fmt b.elems)).mapIdx (fun k d =>
    ({ ctx := u.ctx, cls := b.cls, q := q, k := k }, d)))

/-- The program on one range, with the gradient VLDG returns (R174, R177). -/
def UnitIn.runRange (u : UnitIn) (q : Nat) (g : List Word) : List (ChunkId × Bytes) :=
  let env : ProgEnv := { width := u.m.width, valid := u.m.validLanes q, grad := g, params := u.params, scal := u.scal,
                         seed := leNat u.m.head.seed, step := u.step, layer := u.unit.layer.id, range := q }
  u.unbuf q (runProgram u.prog env (u.bufs q))

/-- The roots in force: the installed ones, or identity in a fresh block before the first install (R193). -/
def rootOr (rooted : Bool) (n : Nat) (x : Mat) : Mat := if !rooted && x.all (·.all (fun w => w = 0)) then eye n else x

/-- A tile's stages 1 to 6 (R195). -/
def UnitIn.tile (u : UnitIn) (w : PcWords) : UnitOut :=
  let nine := u.m.head.passes == 9
  let f := factorBlock w.tr w.tc ((u.unit.factor.map u.get).flatten)
  let lx := match u.roots with | some r => r.1 | none => f.2.2.1
  let rx := match u.roots with | some r => r.2 | none => f.2.2.2
  let g := matOf w.tc ((u.unit.ranges.map u.grad).flatten)
  let gc := g.map (·.map (fMul u.clip))
  let p := (precondition nine (rootOr (u.rooted || u.roots.isSome) w.tr lx) gc (rootOr (u.rooted || u.roots.isSome) w.tc rx)).flatten
  let chunks := (u.unit.ranges.mapIdx (fun n q => u.runRange q ((p.drop (n * u.m.width)).take u.m.width))).flatten
  let doF := u.step % w.interval = 0
  let lr := if doF then updateFactors nine w.beta w.tc f.1 f.2.1 gc else (f.1, f.2.1)
  let blk := u.unit.factor.zip (piecesOf 4096 (factorBytes lr.1 lr.2 lx rx))
  let nF := (w.tr * w.tr + w.tc * w.tc) / 1024
  { chunks := chunks ++ (if doF then blk.take nF else []) ++ (if u.roots.isSome then blk.drop nF else []),
    refresh := if u.step % w.rootEvery = 0 then some lr else none }

/-- A unit's update (R27, R194). -/
def UnitIn.run (u : UnitIn) : UnitOut :=
  match u.unit.pc with
  | some w => u.tile w
  | none => { chunks := u.unit.ranges.flatMap (fun q => u.runRange q (u.grad q)), refresh := none }

end Sys2Proof.Machine
end

