-- ==== Sys2Proof/Machine/Jobs.lean ====
section
/-! DEFINITION. Decodes in progress: patterns, plans and the plan cache, the fragments a row needs, and the reads it sends
(R81 to R87, R126 to R132, R243, R244, R416). -/

namespace Sys2Proof.Machine

/-- A loss pattern in the order of R82: data, local parities, global parities, ascending. -/
def normPattern (g : Geom) (l : List Pos) : List Pos :=
  ((List.range g.k).map Pos.data).filter l.contains ++ ((List.range g.colonies).map Pos.local_).filter l.contains ++
    (((List.range g.r).map (· + 1)).map Pos.global).filter l.contains

/-- The plan of a pattern, or that it has none, kept in a cache of 256, the least recently used evicted (R85; log entry 149). -/
def Inst.planOf (x : Nat) (s : StripeRec) (pattern : List Pos) (i : Inst) : Inst × Option Plan :=
  let pat := normPattern s.geom pattern
  let same := fun (c : CachedPlan) => decide (c.ctx = x) && decide (c.stripe = s.id) && decide (c.pattern = pat)
  let old := i.cod.plans.find? same
  let plan := match old with
    | some c => c.plan
    | none => if neverDecodes s.geom pat then none else decodePlan s.geom pat
  ({ i with cod := { i.cod with plans :=
       ({ ctx := x, stripe := s.id, pattern := pat, plan := plan, doomed := old.any (fun c => c.doomed) } :: i.cod.plans.filter (fun c => !same c)).take 256 } }, plan)

/-- A row to be decoded, nothing fetched yet. -/
def RowJob.start (target : FragId) (chunk : ChunkId) (full : Bool) (lost : List Pos) : RowJob :=
  { target := target, chunk := chunk, lost := lost, off := [], tried := [], asked := [], got := [], full := full,
    done := none, failed := none }

/-- The position a fragment has in its stripe. -/
def FragId.pos (f : FragId) : Pos :=
  match f.role with
  | 0 => .data f.index
  | 2 => .global f.index
  | _ => .local_ f.index

/-- The fragment at a position of a row. -/
def fragAt (stripe row : Nat) (p : Pos) : FragId := { stripe := stripe, row := row, role := p.role.1, index := p.role.2 }

/-- The loss pattern a row is decoded under: its own lost and absent sources and, for a data chunk, the chunk itself. -/
def RowJob.pattern (r : RowJob) : List Pos := (if r.target.role = 0 then [r.target.pos] else []) ++ r.lost ++ r.off

/-- What a plan needs for one chunk: the parities to be had with their vectors, each with the members whose chunks it
takes off, and the members on whose version the pivots must agree (R83, R416; log entry 29). -/
structure RowNeed where
  parities : List (Pos × List Nat)
  agree    : List Nat
  pivots   : List Pos
  deriving DecidableEq, Repr

/-- The needs of a data chunk under a plan. -/
def rowNeed (g : Geom) (plan : Plan) (i : Nat) : RowNeed :=
  let localNeed := fun (j : Nat) => (Pos.local_ (g.colonyOf j), (g.members (g.colonyOf j)).filter (· ≠ j))
  if plan.localFix.contains i then { parities := [localNeed i], agree := [], pivots := [.local_ (g.colonyOf i)] }
  else
    let gone := plan.unknowns ++ plan.localFix
    let pivotNeed := fun (p : Pos) =>
      (p, (List.range g.k).filter (fun m => !gone.contains m && decide (parityCoef g p m ≠ 0)))
    { parities := plan.pivots.map pivotNeed ++ plan.localFix.map localNeed, agree := gone, pivots := plan.pivots }

/-- The vector entry of a member at a parity (R96). -/
def vecEntry (g : Geom) (p : Pos) (m : Nat) (v : List VecEntry) : VecEntry :=
  match (contributors g p.role.1 p.role.2).findIdx? (· = m) with
  | some k => v.getD k { version := 0, digest := 0, committed := false, reconstructed := false }
  | none => { version := 0, digest := 0, committed := false, reconstructed := false }

/-- A fragment in hand: parities by position, data also by version. -/
def RowJob.parity (r : RowJob) (p : Pos) : Option Frag := r.got.find? (fun f => f.pos = p)
def RowJob.data (r : RowJob) (m v : Nat) : Option Frag :=
  r.got.find? (fun f => decide (f.pos = .data m) && decide (f.version = v))

/-- What the pivots record for a member on whose version they must agree: one entry for each pivot it has a part in. -/
def RowJob.records (r : RowJob) (g : Geom) (n : RowNeed) (m : Nat) : List (Pos × VecEntry) :=
  (n.parities.map Prod.fst).filterMap (fun p =>
    if parityCoef g p m = 0 then none else (r.parity p).map (fun f => (p, vecEntry g p m f.vector)))

/-- The pivots that disagree on a member (R416). -/
def RowJob.disagreeing (r : RowJob) (g : Geom) (n : RowNeed) : List Pos :=
  (n.agree.flatMap (fun m =>
    let es := r.records g n m
    match es with
    | [] => []
    | e :: _ => if es.all (fun f => decide (f.2.version = e.2.version) && f.2.committed == e.2.committed) then []
                else es.map Prod.fst)).eraseDups

/-- The data chunks that parities in hand record, each at its version: exactly those of the plan, whether or not the member has
ever committed (R83, R86). -/
def RowJob.dataNeed (r : RowJob) (g : Geom) (n : RowNeed) : List (Nat × Nat) :=
  (n.parities.flatMap (fun p =>
    match r.parity p.1 with
    | none => []
    | some f => p.2.map (fun m => (m, (vecEntry g p.1 m f.vector).version)))).eraseDups

/-- The reads a row has still to send: position, version, and mode 0 AT_VERSION, 1 COMMITTED, 2 VECTOR_ONLY (R259). -/
structure Ask where
  pos     : Pos
  version : Nat
  mode    : Nat
  deriving DecidableEq, Repr

/-- Reads of a data chunk's row: first the parities, and once they agree the data at the versions they record (R127). -/
def RowJob.dataAsks (r : RowJob) (g : Geom) (plan : Plan) : List Ask :=
  let n := rowNeed g plan r.target.index
  let missing := (n.parities.map Prod.fst).filter (fun p => (r.parity p).isNone)
  if !missing.isEmpty then missing.map (fun p => { pos := p, version := 0, mode := 1 })
  else if !(r.disagreeing g n).isEmpty then []
  else
    let thin := (n.parities.map Prod.fst).filter (fun p => match r.parity p with | some f => f.bytes.isEmpty | none => true)
    thin.map (fun p => { pos := p, version := 0, mode := 1 }) ++
      ((r.dataNeed g n).filter (fun d => (r.data d.1 d.2).isNone)).map (fun d => { pos := .data d.1, version := d.2, mode := 0 })

/-- Reads of a parity row's rebuild: every contributor at the version its own vector records (R244). -/
def RowJob.parityAsks (r : RowJob) (g : Geom) (own : List VecEntry) : List Ask :=
  (contributors g r.target.role r.target.index).filterMap (fun m =>
    let e := vecEntry g r.target.pos m own
    if e.committed && (r.data m e.version).isNone then some { pos := .data m, version := e.version, mode := 0 } else none)

/-- The reads of a row (R83, R127, R244, R245). -/
def Inst.rowAsks (x : Nat) (r : RowJob) (i : Inst) : Inst × List Ask × Bool :=
  match (i.image x).bind (fun m => m.stripe r.target.stripe) with
  | none => (i, [], false)
  | some s =>
    match r.target.role with
    | 0 =>
      let p := i.planOf x s r.pattern
      match p.2 with
      | none => (p.1, [], false)
      | some plan => (p.1, r.dataAsks s.geom plan, true)
    | 3 => (i, if (r.parity r.target.pos).isNone then [{ pos := r.target.pos, version := 0, mode := 1 }] else [],
            !r.lost.contains r.target.pos && !r.off.contains r.target.pos)
    | _ =>
      match i.heldRow x r.target with
      | none => (i, [], false)
      | some h =>
        let v := i.readVec h.place
        (v.1, r.parityAsks s.geom v.2, r.lost.isEmpty && r.off.isEmpty)

/-- Whether every read of a row has been answered. -/
def Inst.rowReady (x : Nat) (r : RowJob) (i : Inst) : Bool :=
  let a := i.rowAsks x r
  a.2.2 && a.2.1.isEmpty && r.asked.isEmpty &&
    (match (i.image x).bind (fun m => m.stripe r.target.stripe), r.target.role with
     | some s, 0 => match (i.planOf x s r.pattern).2 with
        | some plan => (r.disagreeing s.geom (rowNeed s.geom plan r.target.index)).isEmpty
        | none => false
     | _, _ => true)

/-- The home a read goes to: that of the position, or the stand-in of a lost data member (R244, R259). -/
def Inst.askHome (x : Nat) (f : FragId) (i : Inst) : Option Home :=
  match i.image x with
  | none => none
  | some m =>
    match m.fragHome f.stripe (if f.role = 3 then 1 else f.role) f.index with
    | none => none
    | some h =>
      if isLost (i.ctx x).memb.lost h then
        if f.role = 0 then (m.stripe f.stripe).bind (fun s => m.standIn (i.ctx x).memb.lost s (s.geom.colonyOf f.index))
        else none
      else some h

/-- The granules a row's reads ask for: all, or the one that holds the failed line. -/
def JobKind.mask (k : JobKind) (full : Bool) : Nat :=
  if full then 0xFFFF
  else match k with
    | .chunkRepair _ l _ => 2 ^ (l / 4)
    | .shadowRepair _ _ => 0xFFFF
    | .rowRepair _ ls _ => (ls.map (· / 4)).eraseDups.foldl (fun a g => a ||| 2 ^ g) 0
    | .standin _ _ => 0xFFFF

/-- A fragment taken into a row. -/
def RowJob.take (f : Frag) (r : RowJob) : RowJob :=
  { r with got := r.got.filter (fun g => !(decide (g.pos = f.pos) && decide (g.version = f.version))) ++ [f] }

/-- A source counted lost, or absent while OFF, for a row: what a new plan no longer needs is dropped (R84, R87, R138). -/
def RowJob.without (p : Pos) (isOff : Bool) (r : RowJob) : RowJob :=
  { r with lost := if isOff then r.lost else (r.lost ++ [p]).eraseDups, off := if isOff then (r.off ++ [p]).eraseDups else r.off,
           got := r.got.filter (fun f => f.pos ≠ p), asked := r.asked.filter (fun a => a.1 ≠ p) }

/-- A served fragment as a row keeps it. -/
def fragOfAns (p : Pos) (version : Nat) (a : FragAns) : Frag :=
  { pos := p, version := version, bytes := a.granules.flatten, mask := a.mask, poison := decide (a.poison ≠ 0),
    vector := a.vector }

/-- A poisoned fragment counts as lost for the row where another plan avoids it (R140). -/
def Inst.acceptFrag (x : Nat) (f : Frag) (r : RowJob) (i : Inst) : Inst × RowJob :=
  if f.poison then
    let t := r.without f.pos false
    let a := i.rowAsks x t
    if a.2.2 then (a.1, t) else (a.1, r.take f)
  else (i, r.take f)

/-- The reads a row sends now: an own fragment is taken at once, any other is asked for (R83). -/
def Inst.sendAsks (x jobId : Nat) (kind : JobKind) : List Ask → RowJob → Inst → Inst × RowJob
  | [], r, i => (i, r)
  | a :: t, r, i =>
    let f := fragAt r.target.stripe r.target.row a.pos
    let f3 := if r.target.role = 3 then { f with role := 3 } else f
    let mask := if a.mode = 2 then 0 else kind.mask r.full
    match i.askHome x f3 with
    | none => Inst.sendAsks x jobId kind t (r.without a.pos false) i
    | some h =>
      if h = i.self then
        let s := i.serveLocal x f3 a.mode mask a.version
        match s.2 with
        | .served ans =>
          let n := s.1.acceptFrag x (fragOfAns a.pos a.version ans) r
          Inst.sendAsks x jobId kind t n.2 n.1
        | .repairChunk slot line => Inst.sendAsks x jobId kind t (r.without a.pos false)
            (match s.1.chunkOfFrag x f3.stripe f3.row f3.index with
             | some c => { s.1 with flt := { s.1.flt with toFix := s.1.flt.toFix ++ [.chunk c slot line] } }
             | none => s.1)
        | .repairRow g ls => Inst.sendAsks x jobId kind t (r.without a.pos false)
            { s.1 with flt := { s.1.flt with toFix := s.1.flt.toFix ++ [.row x g ls] } }
        | _ => Inst.sendAsks x jobId kind t (r.without a.pos false) s.1
      else
        let body : FragBody := { stripe := f3.stripe, row := f3.row, role := f3.role, index := f3.index, mode := a.mode,
                                 mask := mask, version := a.version }
        let share := match kind with | .rowRepair _ _ true => 3 | _ => 0
        Inst.sendAsks x jobId kind t { r with asked := r.asked ++ [(a.pos, a.version)] }
          (i.send h x share (.frag jobId a.pos) (.fragRead body) 0)

/-- A row taken as far as it goes without another answer: own fragments at once, reads sent, a pattern beyond tolerance
failed unless a source is only OFF (R81, R87, R138). -/
def Inst.advanceRow (x jobId : Nat) (kind : JobKind) : Nat → RowJob → Inst → Inst × RowJob
  | 0, r, i => (i, r)
  | n + 1, r, i =>
    if r.done.isSome || r.failed.isSome then (i, r)
    else
      let a := i.rowAsks x r
      if !a.2.2 then (a.1, if r.off.isEmpty then { r with failed := some (if r.tried.isEmpty then 0x20 else 0x21) } else r)
      else
        let new := a.2.1.filter (fun k => !r.asked.contains (k.pos, k.version))
        if new.isEmpty then (a.1, r)
        else
          let s := Inst.sendAsks x jobId kind new r a.1
          Inst.advanceRow x jobId kind n s.2 s.1

/-- Rows of a job advanced, one after another. -/
def Inst.advanceRows (x jobId : Nat) (kind : JobKind) : List RowJob → Inst → Inst × List RowJob
  | [], i => (i, [])
  | r :: t, i =>
    let a := i.advanceRow x jobId kind 600 r
    let b := Inst.advanceRows x jobId kind t a.1
    (b.1, a.2 :: b.2)

/-- Whether a running decode uses a cached plan (R375). -/
def Inst.planUsed (i : Inst) (p : CachedPlan) : Bool :=
  match (i.image p.ctx).bind (fun m => m.stripe p.stripe) with
  | some s => i.flt.jobs.any (fun j => !j.queued && decide (j.ctx = p.ctx) &&
      j.rows.any (fun r => decide (r.target.stripe = p.stripe) && decide (normPattern s.geom r.pattern = p.pattern)))
  | none => false

/-- The jobs of the instance. -/
def Inst.job (i : Inst) (id : Nat) : Option Job := i.flt.jobs.find? (fun j => j.id = id)
def Inst.putJob (j : Job) (i : Inst) : Inst :=
  { i with flt := { i.flt with jobs := i.flt.jobs.map (fun k => if k.id = j.id then j else k) } }
def Inst.dropJob (id : Nat) (i : Inst) : Inst :=
  let j : Inst := { i with flt := { i.flt with jobs := i.flt.jobs.filter (fun k => k.id ≠ id) } }
  { j with cod := { j.cod with plans := j.cod.plans.filter (fun p => !p.doomed || j.planUsed p) } }

/-- A job's rows advanced, unless it still waits its turn (R132). -/
def Inst.advanceJob (id : Nat) (i : Inst) : Inst :=
  match i.job id with
  | none => i
  | some j =>
    if j.queued then i
    else
      let a := i.advanceRows j.ctx j.id j.kind j.rows
      a.1.putJob { j with rows := a.2 }

/-- Whether a job counts among the 64 decodes of a stand-in (R132). -/
def Job.isDecode (j : Job) : Bool := match j.kind with | .standin _ _ => true | _ => false

/-- Copies that have no backlog record and serve no update in flight evicted; that of a LOST_UNREPAIRED chunk keeps its frozen
version (R126, R135). -/
def Inst.evictCopies (i : Inst) : Inst :=
  let keep := fun (k : Copy) => i.cod.backlog.any (fun r => r.chunk = k.chunk) ||
    i.opt.flights.any (fun f => f.newChunks.any (fun c => c.chunk = k.chunk)) || k.info.lost
  { i with flt := { i.flt with copies := i.flt.copies.filter keep } }

/-- Room in the fault-service share for the chunks of a decode (R126). -/
def Inst.decodeRoom (rows : Nat) (i : Inst) : Bool := i.shareRoom 3 (4096 * rows)

/-- A class-1 array job that arrives while a margin sample has lowered the supply stops the sample (R351). -/
def Inst.abortSample (kind : JobKind) (i : Inst) : Inst :=
  let first := match kind with
    | .chunkRepair _ _ scrub => !scrub
    | .rowRepair _ _ check => !check
    | _ => true
  if first && i.arr.sampling && i.arr.lowSupply then
    (({ i with arr := { i.arr with lowSupply := false, restart := true } }).count Cnt.marginAborted 1).emitOut (.supplyStep true)
  else i

/-- A job begun: at most 64 decodes run at once, and a new decode waits for space in the fault-service share; further ones wait
in order (R126, R132). -/
def Inst.newJob (x : Nat) (kind : JobKind) (rows : List RowJob) (i : Inst) : Inst :=
  let dec := match kind with | .standin _ _ => true | _ => false
  let i := (if dec && !i.decodeRoom rows.length then i.evictCopies else i).abortSample kind
  let id := i.flt.nextJob
  let run := (i.flt.jobs.filter (fun j => j.isDecode && !j.queued)).length
  let full := dec && !i.decodeRoom rows.length
  let j : Job := { id := id, ctx := x, kind := kind, rows := rows, phase := 0, ledger := [], floorSeen := none,
                   mended := [], queued := full || (dec && decide (64 ≤ run)) }
  let k := if full then (i.count Cnt.fsShareWait 1).poolFail 3 else i
  ({ k with flt := { k.flt with jobs := k.flt.jobs ++ [j], nextJob := id + 1 } }).advanceJob id

/-- Decodes that waited their turn begun, as far as there is room (R126, R132). -/
def Inst.wakeJobs (i : Inst) : Inst :=
  let run := (i.flt.jobs.filter (fun j => j.isDecode && !j.queued)).length
  let next := ((i.flt.jobs.filter (fun j => j.isDecode && j.queued)).take (64 - run)).map (fun j => j.id)
  next.foldl (fun i id =>
    match i.job id with
    | some j =>
      let k := if i.decodeRoom j.rows.length then i else i.evictCopies
      if k.decodeRoom j.rows.length then (k.putJob { j with queued := false }).advanceJob id else k
    | none => i) i

/-- The lost positions of a stripe under the present lost set (R81). -/
def Inst.lostIn (i : Inst) (x stripe : Nat) : List Pos :=
  match i.image x with
  | some m => match m.stripe stripe with
    | some s => m.lostPositions (i.ctx x).memb.lost s
    | none => []
  | none => []

/-- The private repair of a line of a data chunk (R243); none begins twice. `line` 64 stands for the whole chunk. -/
def Inst.startChunkRepair (c : ChunkId) (slot line : Nat) (scrub : Bool) (i : Inst) : Inst :=
  if i.repairing slot then i
  else match i.chunkFrags c with
    | [] => i
    | f :: _ => i.newJob c.ctx (.chunkRepair slot line scrub) [RowJob.start f c (line == 64) (i.lostIn c.ctx f.stripe)]

/-- The repair of a SHADOW chunk at its home from its sub-row (R245). -/
def Inst.startShadowRepair (c : ChunkId) (slot line : Nat) (i : Inst) : Inst :=
  if i.repairing slot then i
  else match (i.chunkTargets c).head? with
    | none => i
    | some t => i.newJob c.ctx (.shadowRepair slot line) [RowJob.start t.1 c true []]

/-- The rebuild of a parity row from its contributors, or its check (R244, R252). -/
def Inst.startRowRepair (x : Nat) (f : FragId) (lines : List Nat) (check : Bool) (i : Inst) : Inst :=
  if i.rowRebuilding x f then i
  else i.newJob x (.rowRepair f lines check)
    [RowJob.start f { ctx := x, cls := 0, q := 0, k := 0 } (check || decide (16 ≤ lines.length)) []]

/-- A row marked DAMAGED; a full put still open does not heal it (R244, R245). -/
def Inst.damageRow (x : Nat) (f : FragId) (i : Inst) : Inst :=
  let j : Inst := { i with cod := { i.cod with opens := i.cod.opens.map (fun o =>
    if o.ctx = x ∧ o.frag = f then { o with heals := false } else o) } }
  if j.cod.damaged.contains (x, f) then j
  else ({ j with cod := { j.cod with damaged := j.cod.damaged ++ [(x, f)] } }).event 0x1C03 (some x)
    [(24, 4, f.stripe), (28, 4, f.row)]

/-- The repairs that decodes of this instance found due, begun (R240, R243 to R245). -/
def Inst.startFixes (i : Inst) : Inst :=
  i.flt.toFix.foldl (fun i t =>
    match t with
    | .chunk c slot line =>
      match i.image c.ctx with
      | some m => if m.protOf c = 1 then i.startShadowRepair c slot line else i.startChunkRepair c slot line false
      | none => i
    | .row x f lines => if f.role = 3 then i.damageRow x f else i.startRowRepair x f lines false)
    { i with flt := { i.flt with toFix := [] } }

end Sys2Proof.Machine
end

