-- ==== Sys2Proof/Machine/Pump.lean ====
section
/-! DEFINITION. The fabric port's sending side: what may leave, completion-table entries, parking and resuming a channel
(R138, R255, R262, R266, R269, R271 to R274). -/

namespace Sys2Proof.Machine

/-- Whether a peer is matched in a context: both offers have been answered MATCH (R262). -/
def Inst.matched (i : Inst) (x : Nat) (h : Home) : Bool :=
  (i.ctx x).memb.matchIn.contains h && (i.ctx x).memb.matchOut.contains h

/-- Whether the windows of the committed map, as amended, permit an operation (R266). -/
def Inst.permitted (i : Inst) (m : MapImage) (o : OutOp) : Bool :=
  !isLost (i.ctx o.ctx).memb.lost o.dst && m.windowOk o.dst o.body.code o.body.rowChecked

/-- Operations an unmatched or saturated context may still send (R120, R262). -/
def OpBody.always : OpBody → Bool
  | .handshake _ => true
  | .degraded _ => true
  | _ => false

/-- Whether an operation is the record by which a home tells of its own OFFLINE (R305). -/
def OpBody.tellsOf (self : Home) : OpBody → Bool
  | .degraded b => b.entries.any (fun e => e.home = self)
  | _ => false

/-- Whether an operation asks for a fragment of a decode. -/
def OutOp.asks (o : OutOp) : Bool := match o.owner with | .frag _ _ => true | _ => false

/-- What the port does with an operation now; a fragment asked of an instance that is OFF is absent (R138). -/
inductive Gate where
  | go | hold | deny | discard | absent
  deriving DecidableEq, Repr

/-- The gate of an operation (R120, R123, R262, R266, R269, R271, R272, R274): a fenced context sends nothing but the record
of its own OFFLINE (R305, log entry 80). -/
def Inst.gate (i : Inst) (o : OutOp) : Gate :=
  match i.image o.ctx with
  | none => .discard
  | some m =>
    let c := i.ctx o.ctx
    let ch := i.chan o.dst
    if (c.memb.fenced || c.memb.offline) && !(c.memb.offline && o.body.tellsOf i.self) then .hold
    else if !o.body.always && (c.memb.saturated || !i.matched o.ctx o.dst) then .hold
    else if !i.permitted m o then .deny
    else if ch.offWait && o.asks then .absent
    else if ch.parked || ch.offWait then .hold
    else if ch.resetDue && o.body.code ≠ 0x0C then .hold
    else if 64 ≤ i.fab.unanswered o.dst then .hold
    else if i.fab.cplRoom o.share then .go else .hold

/-- The lowest free completion-table entry (R272). -/
def freeEntry (t : Tbl CplEntry) : Nat := ((List.range 8192).find? (fun k => (t.find k).isNone)).getD 8192

/-- The handshake a home offers for a context (R261). -/
def Inst.handshakeBody (x : Nat) (reset : Bool) (seq : Nat) (i : Inst) : HandshakeBody :=
  match (i.ctx x).map.image with
  | some m => { imageVersion := m.head.version, contract := m.head.contract, ctxTag := ctxTagOf m.head.seed,
                channelReset := reset, epoch := i.hb.epoch, seqBase := if reset then seq else 0 }
  | none => { imageVersion := 0, contract := 0x00010000, ctxTag := 0, channelReset := reset, epoch := i.hb.epoch,
              seqBase := if reset then seq else 0 }

/-- The body as it leaves: a handshake takes its fields when it is sent (R261, R271). -/
def Inst.fillBody (o : OutOp) (reset : Bool) (seq : Nat) (i : Inst) : OpBody :=
  match o.body with
  | .handshake _ => .handshake (i.handshakeBody o.ctx reset seq)
  | b => b

/-- The bytes of an operation put on the fabric (R255, R256). -/
def Inst.putOp (o : OutOp) (seq tag : Nat) (retransmit : Bool) (version : Nat) (i : Inst) : Inst :=
  let hdr : FabHdr :=
    { opcode := o.body.code, ctx := o.ctx, srcNode := 0, srcHome := i.self.idx, flagged := o.body.flagged, retransmit := retransmit,
      message := !i.direct o.dst.node, granules := o.body.payload.length, ctxTag := i.ctxTag o.ctx, mapVersion := version, seq := seq,
      tag := tag, poison := o.poison }
  i.emitOut (.fabric (headerBytes o.dst hdr) o.body.bytes o.body.payload)

/-- An operation sent: it takes an entry and the channel's next SEQ (R269, R272). -/
def Inst.launch (o : OutOp) (i : Inst) : Inst :=
  let c := i.chan o.dst
  let isHs := o.body.code == 0x0C
  let reset := isHs && (c.resetDue || c.parked || c.offWait)
  let seq := c.outSeq
  let e := freeEntry i.fab.cpl
  let gen := i.fab.gens.getD 0 e
  let op : OutOp := { o with body := i.fillBody o reset seq, held := false }
  let ver := (i.ctx o.ctx).mapVersion
  let j := i.setChan { c with outSeq := (seq + 1) % 2 ^ 32, resetDue := if reset then false else c.resetDue }
  let k : Inst := { j with fab := { j.fab with
    gens := j.fab.gens.put e ((gen + 1) % 2 ^ 19),
    cpl := j.fab.cpl.put e { gen := gen, seq := seq, tries := 0, version := ver, op := op } } }
  k.putOp op seq (e + 2 ^ 13 * gen) false ver

/-- WINDOW_DENY counted and logged (R266, R383). -/
def Inst.noteDeny (o : OutOp) (i : Inst) : Inst :=
  let r := o.body.rowChecked.getD (0, 0)
  (i.count Cnt.windowDeny 1).event 0x1703 (some o.ctx)
    [(20, 1, o.body.code), (21, 2, o.dst.node), (23, 1, o.dst.idx), (24, 4, r.1), (28, 4, r.2)]

/-- A row of a job changed, found by its stripe and row, and the job advanced. -/
def Inst.updateRow (job stripe row : Nat) (g : RowJob → RowJob) (i : Inst) : Inst :=
  match i.job job with
  | none => i
  | some j =>
    (i.putJob { j with rows := j.rows.map (fun r =>
      if r.target.stripe = stripe ∧ r.target.row = row then g r else r) }).advanceJob job

/-- A source of a decode that cannot supply its fragment, counted lost for the row, or absent while OFF (R87, R138). -/
def Inst.sourceGone (job : Nat) (p : Pos) (b : OpBody) (off : Bool) (i : Inst) : Inst :=
  match b with
  | .fragRead f => i.updateRow job f.stripe f.row (fun r => r.without p off)
  | _ => i

/-- A fragment asked of an instance known to be OFF (R138). -/
def Inst.absent (o : OutOp) (i : Inst) : Inst :=
  match o.owner with
  | .frag job p => i.sourceGone job p o.body true
  | _ => i

/-- The owner's action when the windows refuse its operation (R148, R266). -/
def Inst.denied (o : OutOp) (i : Inst) : Inst :=
  match o.owner with
  | .frag job p => i.sourceGone job p o.body false
  | .push id => { i with memb := { i.memb with pushes := i.memb.pushes.map (fun p => if p.id = id then { p with sent := false } else p),
                                               stopped := insertNat o.ctx i.memb.stopped } }
  | .put _ => { i with memb := { i.memb with stopped := insertNat o.ctx i.memb.stopped } }
  | .cutover _ _ => { i with memb := { i.memb with stopped := insertNat o.ctx i.memb.stopped } }
  | .forward => { i with memb := { i.memb with stopped := insertNat o.ctx i.memb.stopped } }
  | _ => i

/-- Whether a refused operation is held by its owner: coding and ledger traffic, and what a stopped caravan still has to forward
(R148, R266). -/
def OutOp.holds (o : OutOp) : Bool := o.share == 1 || o.share == 2 || o.owner == OpOwner.forward

/-- The queue walked once, in order; an operation that must wait holds every later one of its context and channel. -/
def Inst.pumpList : List OutOp → List (Home × Nat) → Inst → Inst
  | [], _, i => i
  | o :: t, blocked, i =>
    let keep := fun (o : OutOp) (i : Inst) => { i with fab := { i.fab with outq := i.fab.outq ++ [o] } }
    if blocked.contains (o.dst, o.ctx) && !o.body.always then Inst.pumpList t blocked (keep o i)
    else match i.gate o with
      | .go => Inst.pumpList t blocked (i.launch o)
      | .hold => Inst.pumpList t (if o.body.code = 0x0C then blocked else (o.dst, o.ctx) :: blocked) (keep o i)
      | .discard => Inst.pumpList t blocked (i.noteDeny o)
      | .absent => Inst.pumpList t blocked (i.absent o)
      | .deny =>
        let j := if o.held then i else i.noteDeny o
        if o.holds then Inst.pumpList t ((o.dst, o.ctx) :: blocked) (keep { o with held := true } (j.denied o))
        else Inst.pumpList t blocked (j.denied o)

/-- One pass: the repairs found due begun, then the queue. -/
def Inst.pumpOnce (i : Inst) : Inst :=
  let j := i.startFixes
  Inst.pumpList j.fab.outq [] { j with fab := { j.fab with outq := [] } }

/-- Passes over the queue: a refused read can make a decode ask elsewhere. -/
def Inst.pumpN : Nat → Inst → Inst
  | 0, i => i
  | n + 1, i => Inst.pumpN n i.pumpOnce

/-- Everything that may leave now leaves, while the datapath runs (R39). -/
def Inst.pump (i : Inst) : Inst := if i.running then i.pumpN 4 else i

/-- Entries of a channel, in SEQ order from its oldest (R274). -/
def Fabric.entriesTo (f : Fabric) (h : Home) : List (Nat × CplEntry) :=
  let es := f.cpl.filter (fun e => e.2.op.dst = h)
  match es.map (fun e => e.2.seq) with
  | [] => []
  | s :: rest =>
    let base := rest.foldl (fun a b => if newer a b then b else a) s
    sortBy (fun e => (e.2.seq + 2 ^ 32 - base) % 2 ^ 32) es

/-- Operations of a channel given back to their owners unsent, ahead of what is queued (R273, R274). -/
def Inst.takeBack (h : Home) (i : Inst) : Inst :=
  let back := (i.fab.entriesTo h).map (fun e => e.2.op)
  { i with fab := { i.fab with cpl := i.fab.cpl.filter (fun e => e.2.op.dst ≠ h), outq := back ++ i.fab.outq } }

/-- A channel parked (R274). -/
def Inst.park (h : Home) (i : Inst) : Inst :=
  if (i.chan h).parked then i
  else
    let j := (i.takeBack h).modChan h (fun c => { c with parked := true })
    (j.count Cnt.fabricPark 1).event 0x1701 none [(20, 2, h.node), (22, 1, h.idx)]

/-- The lowest live context, not fenced, in which a home is a stripe peer (R123; log entry 33). -/
def Inst.offerCtx (i : Inst) (h : Home) : Option Nat :=
  (i.ctxs.find? (fun c => c.2.live && !c.2.memb.fenced && (match c.2.map.image with | some m => (m.peers i.self).contains h | none => false))).map Prod.fst

/-- An offer of a handshake in a context (R261). -/
def Inst.offer (x : Nat) (h : Home) (i : Inst) : Inst := i.send h x 4 .offer (.handshake (i.handshakeBody x false 0)) 0

/-- One offer with CHANNEL_RESET on a parked or waiting channel, sent at once (R273, R274) if there is an entry for it (R272); it takes
the place of an offer of its context that is held. -/
def Inst.offerReset (h : Home) (i : Inst) : Inst :=
  match i.offerCtx h with
  | none => i
  | some x =>
    if !i.fab.cplRoom 4 then i
    else
      let o : OutOp := { id := i.fab.nextId, dst := h, ctx := x, body := .handshake (i.handshakeBody x true 0),
                         owner := .offer, share := 4, poison := 0, held := false }
      ({ i with fab := { i.fab with nextId := i.fab.nextId + 1,
                                    outq := i.fab.outq.filter (fun p => !(decide (p.dst = h) && decide (p.ctx = x) && p.owner == OpOwner.offer)) } }).launch o

/-- A channel resumed at the first answer to its offer (R274). -/
def Inst.resumeChan (h : Home) (base : Nat) (i : Inst) : Inst :=
  let c := i.chan h
  if c.parked || c.offWait then
    ((i.setChan { c with parked := false, offWait := false, resetDue := false }).event 0x1702 none
      [(20, 2, h.node), (22, 1, h.idx), (24, 4, base)])
  else i

end Sys2Proof.Machine
end

