-- ==== Sys2Proof/Machine/Amend.lean ====
section
/-! DEFINITION. Lost sets: declaring a home lost, merging a record, saturation, fencing, and what an amendment does to work in
flight (R101, R111, R118 to R125, R136, R162, R273). -/

namespace Sys2Proof.Machine

/-- A granule XORed into a row, line by line, with the DIGEST of its slot: the lines that cannot be read are left as they are and
named (R58, R101, R244). -/
def Inst.xorRow (h : HeldRow) (g : Nat) (b : Bytes) (i : Inst) : Inst × List Nat :=
  let first := 4 * (h.first + g)
  let d := (i.openSlot h.slot).readLines false (64 * h.slot + first) 4
  let bad := failedLines d.2
  let delta := (piecesOf 64 b).mapIdx (fun k p => if bad.contains k then List.replicate 64 0 else p)
  let write := fun (m : MemSt) (k : Nat) => match d.2.getD k none with
    | some old => m.putLine (64 * h.slot + first + k) (xorBytes old (delta.getD k []))
    | none => m
  (({ d.1 with mem := (List.range 4).foldl write d.1.mem } : Inst).digestXor h.slot (h.first + g) delta.flatten, bad.map (· + first))

/-- Several granules XORed into a row; the lines that could not be read. -/
def Inst.xorGranules (h : HeldRow) : List (Nat × Bytes) → Inst → Inst × List Nat
  | [], i => (i, [])
  | (g, b) :: t, i =>
    let a := i.xorRow h g b
    let r := Inst.xorGranules h t a.1
    (r.1, a.2 ++ r.2)

/-- An open step rolled back: its kept granules XORed in again, and the step discarded (R101). A line that cannot be read is
repaired from the contributors; a sub-row with one is DAMAGED (R240, R244, R245). -/
def Inst.rollbackOpen (o : OpenStep) (i : Inst) : Inst :=
  let j : Inst := { i with cod := { i.cod with opens := i.cod.opens.filter (fun p => p ≠ o) } }
  if o.poisoned then j
  else match j.heldRow o.ctx o.frag with
    | none => j
    | some h =>
      let r := j.xorGranules h ((bitsSet 16 o.mask).zip o.kept)
      if r.2.isEmpty then r.1
      else if o.frag.role = 3 then r.1.damageRow o.ctx o.frag
      else r.1.startRowRepair o.ctx o.frag r.2 false

/-- Open steps rolled back in turn. -/
def Inst.rollbackAll (os : List OpenStep) (i : Inst) : Inst := os.foldl (fun i o => i.rollbackOpen o) i

/-- A pair of a backlog record and a holder set back to nothing sent (R102, R105). -/
def resetOwe (h : Home) (r : Backlog) : Backlog :=
  { r with owes := r.owes.map (fun o => if o.home = h then { o with sent := 0 } else o) }

/-- Operations of a context to a home that has left service: their owners are told, and at an amendment their entries are freed (R136,
R273); at a commit point the entries are kept for late answers (R102, R273). -/
def Inst.dropTo (x : Nat) (h : Home) (keep : Bool) (i : Inst) : Inst :=
  let mine := fun (o : OutOp) => decide (o.ctx = x) && decide (o.dst = h)
  let gone := (if keep then i.fab.outq ++ i.fab.retry else i.fab.all).filter mine
  let j : Inst := { i with
                    fab := if keep then { i.fab.drop mine with cpl := i.fab.cpl } else i.fab.drop mine,
                    cod := { i.cod with backlog := i.cod.backlog.map (fun r => if r.chunk.ctx = x then resetOwe h r else r) },
                    memb := { i.memb with moving := i.memb.moving.map (fun v =>
                      if v.ctx = x ∧ v.dst = h then { v with cutSent := false, unacked := 0 } else v) } }
  gone.foldl (fun i o =>
    match o.owner with
    | .frag job p => i.sourceGone job p o.body false
    | .ledger job => (match i.job job with | some k => i.putJob { k with phase := max k.phase 2 } | none => i)
    | .push id => { i with memb := { i.memb with pushes := i.memb.pushes.map (fun p =>
        if p.id = id then { p with sent := false } else p) } }
    | _ => i) j

/-- Lost positions entering rows that are not finished (R87); a repair re-plans only where it still waits on one (R246). -/
def Inst.replanFor (x : Nat) (i : Inst) : Inst :=
  let fix := fun (isRepair : Bool) (r : RowJob) =>
    if r.done.isSome || r.failed.isSome || r.target.role ≠ 0 then r
    else ((i.lostIn x r.target.stripe).filter (fun p => !r.lost.contains p && p ≠ r.target.pos &&
        (!isRepair || r.asked.any (fun a => a.1 = p)))).foldl (fun r p => r.without p false) r
  let one := fun (j : Job) => if j.ctx = x then { j with rows := j.rows.map (fix (!j.isDecode)) } else j
  let j : Inst := { i with flt := { i.flt with jobs := i.flt.jobs.map one } }
  (j.flt.jobs.filter (fun k => k.ctx = x)).foldl (fun i k => i.advanceJob k.id) j

/-- Ranges with a step accepted here and not committed everywhere marked UNLEDGERED when their ledger holder is lost (R111). -/
def Inst.markUnledgered (x : Nat) (h : Home) (i : Inst) : Inst :=
  match i.image x with
  | none => i
  | some m =>
    let qs := ((i.cod.backlog.filter (fun r => r.chunk.ctx = x)).flatMap (fun r => i.chunkRanges m r.chunk) ++
      ((i.opt.work.filter (fun w => decide (w.ctx = x) && !w.retired && w.stage != .skipped)).map (fun w => w.q))).eraseDups
    let new := qs.filter (fun q => m.ledgerHolder q == some h && !i.cod.unledgered.contains (x, q))
    ({ i with cod := { i.cod with unledgered := i.cod.unledgered ++ new.map (fun q => (x, q)) } }).count
      Cnt.unledgeredMarks new.length

/-- Ledger copies whose holder is declared lost: the range's later steps wait until the next map's holder has one (R21). -/
def Inst.putsStand (x : Nat) (h : Home) (i : Inst) : Inst :=
  { i with opt := { i.opt with work := i.opt.work.map (fun w => if w.ctx = x ∧ w.putsDue.contains h then { w with resend := true } else w) } }

/-- The lost set in ascending (NODE, HOME_INDEX) (R121). -/
def sortLost (l : List LostHome) : List LostHome := sortBy (fun e => e.home.node * 256 + e.home.idx) l

/-- The DEGRADED record of a context (R121). -/
def Inst.degradedBody (x : Nat) (i : Inst) : DegradedBody :=
  { imageVersion := (i.ctx x).imageVersion, detector := (i.ctx x).memb.newest, entries := sortLost (i.ctx x).memb.lost }

/-- The homes told of a loss: every colony home of each colony shared with the lost home (R121). -/
def MapImage.toldOf (m : MapImage) (self lost : Home) : List Home :=
  ((m.stripes.flatMap (fun s => (List.range s.geom.colonies).flatMap (fun c =>
    let hs := m.colonyHomes s c
    if hs.contains self && hs.contains lost then hs else []))).eraseDups).filter (fun h => h ≠ self && h ≠ lost)

/-- The global parity holders a stand-in forwards a record to (R121). -/
def Inst.forwardTo (x : Nat) (i : Inst) : List Home :=
  match i.image x with
  | none => []
  | some m =>
    ((m.stripes.flatMap (fun s =>
      let stands := (List.range s.geom.colonies).any (fun c =>
        (m.colonyHomes s c).any (fun h => isLost (i.ctx x).memb.lost h) && m.standIn (i.ctx x).memb.lost s c == some i.self)
      if stands then (List.range s.geom.r).filterMap (fun j => m.fragHome s.id 2 (j + 1)) else [])).eraseDups).filter
        (fun h => h ≠ i.self && !isLost (i.ctx x).memb.lost h)

/-- A context fenced: its backlog, pending gradients and caravans are discarded, its stack kept (R123, R162). -/
def Inst.fence (x cause : Nat) (i : Inst) : Inst :=
  if (i.ctx x).memb.fenced then i
  else
    let j := i.modMemb x (fun m => { m with fenced := true })
    let k : Inst := { j with
      cod := { j.cod with backlog := j.cod.backlog.filter (fun r => r.chunk.ctx ≠ x) },
      opt := { j.opt with work := j.opt.work.filter (fun w => w.ctx ≠ x), flights := j.opt.flights.filter (fun f => f.ctx ≠ x),
                          scalars := j.opt.scalars.filter (fun s => s.ctx ≠ x) },
      emit := { j.emit with waiting := j.emit.waiting.filter (fun b => b.ctx ≠ x) },
      memb := { j.memb with moving := j.memb.moving.filter (fun m => m.ctx ≠ x),
                            pushes := j.memb.pushes.filter (fun p => p.chunk.ctx ≠ x) },
      flt := { j.flt with jobs := j.flt.jobs.filter (fun b => b.ctx ≠ x), copies := j.flt.copies.filter (fun c => c.chunk.ctx ≠ x),
                          served := j.flt.served.filter (fun s => s.1 ≠ x), settled := j.flt.settled.filter (fun s => s.1 ≠ x) },
      fab := j.fab.drop (fun o => decide (o.ctx = x)) }
    k.faultRecord { kind := 3, cause := cause, ctx := some x, subject := k.self, detector := k.self,
                    lostCount := (k.ctx x).memb.lost.length, before := (i.ctx x).mapVersion, after := (k.ctx x).mapVersion }

/-- A home that a full lost set cannot take: the context is SATURATED, and the home listed with the home that told of it; a list
that has filled keeps it so until the context is released (R120). -/
def Inst.saturate (x : Nat) (l : LostHome) (merged : Bool) (detector : Home) (i : Inst) : Inst :=
  let m := (i.ctx x).memb
  if m.waiting.any (fun w => w.1.home = l.home) then i
  else
    let wait := (m.waiting ++ [(l, detector)]).take 1024
    let j := i.modMemb x (fun m => { m with saturated := true, waiting := wait, waitFull := m.waitFull || decide (1024 ≤ wait.length) })
    let v := (j.ctx x).mapVersion
    (j.event 0x1206 (some x) [(20, 2, l.home.node), (22, 1, l.home.idx)]).faultRecord
      { kind := 7, cause := if merged then 0x41 else 0x40, ctx := some x, subject := l.home, lostCount := m.lost.length,
        before := v, after := v, detector := detector, here := !merged, detail := if merged then l.cause else 0 }

/-- Ranges of runs homed at homes this instance stands in for and has not adopted, in the order of R125: those whose ledger
entries it holds, by oldest step, then the others, ascending. -/
def Inst.toAdopt (x : Nat) (i : Inst) : List (Nat × Home) :=
  match i.image x with
  | none => []
  | some m =>
    let qs := (m.runs.filter (fun r => decide (r.cls = m.master))).flatMap (fun r =>
      match m.homeAt r.homeId with
      | some h => if isLost (i.ctx x).memb.lost h then (List.range r.count).map (fun k => r.firstRange + k) else []
      | none => []) ++ (i.memb.remote.filter (fun r => decide (r.ctx = x) && i.sourceLost r)).map (fun r => r.q)
    let mine := (sortBy id qs.eraseDups).filterMap (fun q => match i.serves x q with
      | some (some l) => if i.flt.adopted.contains (x, q) then none else some (q, l)
      | _ => none)
    let oldest := fun (q : Nat) => ((i.cod.ledger.filter (fun e => decide (e.ctx = x) && decide (e.entry.kind = 0) &&
      decide (e.entry.range = q))).map (fun e => e.entry.step)).min?
    sortBy (fun p => (oldest p.1).getD 0) (mine.filter (fun p => (oldest p.1).isSome)) ++
      mine.filter (fun p => (oldest p.1).isNone)

/-- The row of a coded chunk that a stand-in decodes: its own, under the old stripe while doubly coded, or its shadow
sub-row (R127, R130, R146). -/
def Inst.standinRow (x : Nat) (c : ChunkId) (i : Inst) : Option RowJob :=
  match i.image x with
  | none => none
  | some m =>
    match m.cls c.cls, (i.chunkFrags c).getLast? with
    | some r, some f =>
      if r.prot = 0 then some (RowJob.start f c true (i.lostIn x f.stripe))
      else if r.prot = 1 then
        (m.stripe f.stripe).map (fun s => RowJob.start { f with role := 3, index := s.geom.colonyOf f.index } c true [])
      else none
    | _, _ => none

/-- The chunks a stand-in needs for a range: those of its update unit, the factor block with them (R197). -/
def Inst.unitChunks (x q : Nat) (i : Inst) : List ChunkId :=
  match i.image x, i.unitOf x q with
  | some m, some u => u.ranges.flatMap (m.chunksOf x) ++ u.factor
  | _, _ => []

/-- Whether a decode of a range's unit runs. -/
def Inst.decoding (x q : Nat) (i : Inst) : Bool :=
  i.flt.jobs.any (fun j => decide (j.ctx = x) && (match j.kind with | .standin _ r => r == i.unitHead x q | _ => false))

/-- The rows of a range's unit that a stand-in has no copy of; a poisoned copy is decoded again (R126, R141). -/
def Inst.standinRows (x q : Nat) (i : Inst) : List RowJob :=
  ((i.unitChunks x q).filter (fun c => !i.flt.copies.any (fun k => decide (k.chunk = c) && !k.info.poison))).filterMap (fun c => i.standinRow x c)

/-- A decode of a range's unit, unless one runs or every chunk is in hand (R125, R126). -/
def Inst.decodeUnit (x q : Nat) (l : Home) (i : Inst) : Inst :=
  let rows := i.standinRows x q
  if i.decoding x q || rows.isEmpty then i else i.newJob x (.standin l (i.unitHead x q)) rows

/-- A decode of a range begun, unless one runs or every chunk is in hand; beyond the first it is a degraded read
(R125, R126, R132). -/
def Inst.startStandin (x q : Nat) (l : Home) (i : Inst) : Inst :=
  if i.decoding x q then i
  else
    let j : Inst := { i with flt := { i.flt with served := if i.flt.served.contains (x, l) then i.flt.served else i.flt.served ++ [(x, l)] } }
    (if i.flt.adopted.contains (x, q) && !(i.standinRows x q).isEmpty then j.count Cnt.degradedReads 1 else j).decodeUnit x q l

/-- Whether this instance still serves some range in a member's name (R134, R164). -/
def Inst.servesFor (x : Nat) (l : Home) (i : Inst) : Bool :=
  i.memb.moving.any (fun v => decide (v.ctx = x) && v.standin == some l) ||
    (match i.image x with
     | some m => isLost (i.ctx x).memb.lost l && m.runs.any (fun r => r.cls == m.master && m.homeAt r.homeId == some l)
     | none => false)

/-- Members whose state SERVED has ended: by cutover, by a shrink image, by a rejoin (R134). -/
def Inst.endServed (x : Nat) (i : Inst) : Inst :=
  { i with flt := { i.flt with served := i.flt.served.filter (fun s => s.1 ≠ x || i.servesFor x s.2),
                               firstServed := i.flt.firstServed.filter (fun s => s.1 ≠ x || i.servesFor x s.2.1),
                               settled := i.flt.settled.filter (fun s => s.1 ≠ x || (match i.serves x s.2.1 with | some (some _) => true | _ => false)) } }

/-- A stand-in that takes over a range in transition becomes its source (R145, R159). -/
def Inst.joinCaravan (x q : Nat) (l : Home) (i : Inst) : Inst :=
  match i.remoteOf x q with
  | some r => if (i.movingOf x q).isSome then i else
      { i with memb := { i.memb with moving := i.memb.moving ++
        [{ ctx := x, q := q, dst := r.dst, standin := some l, slots := [], sent := [], probe := false, full := [], owed := [],
           unacked := 0, cutSent := false, attempts := 0, faulted := false }] } }
  | none => i

/-- What a new stand-in does: it adopts the ranges, tells its reduction unit, and begins to decode them (R125). -/
def Inst.adopt (x : Nat) (i : Inst) : Inst :=
  match i.image x with
  | none => i
  | some m =>
    (i.toAdopt x).foldl (fun i p =>
      let j := (i.emitOut (.adopt x p.1 1 ((m.layerOf p.1).map (fun l => l.id) |>.getD 0))).startStandin x p.1 p.2
      Inst.joinCaravan x p.1 p.2 { j with flt := { j.flt with adopted := j.flt.adopted ++ [(x, p.1)] } }) i

/-- Whether two pushes are of one chunk to one place. -/
def samePush (a b : Push) : Bool := a.chunk == b.chunk && a.frag == b.frag && a.home == b.home && a.pos == b.pos

/-- The pushes that members lost since the commit point owed, made by their stand-in in their names (R152, R159): what the image
before the open transitions did not owe, of the chunks this instance has come to serve. -/
def Inst.latePushes (x : Nat) (before : Inst) (i : Inst) : Inst :=
  match (i.ctx x).memb.prev, i.image x with
  | some p, some m =>
    let was := before.servedCoded x m
    let need := ((i.servedCoded x m).filter (fun s => s.2.isSome && !was.contains s)).flatMap (fun s =>
      ((i.chunkTargets s.1).filter (fun t => !(p.1.targetsOf s.1).contains t ||
        (isLost p.2 t.2.2 && !isLost (i.ctx x).memb.lost t.2.2))).map (fun t =>
          ({ id := 0, chunk := s.1, frag := t.1, home := t.2.2, pos := t.2.1, recon := true, sent := false } : Push)))
    let new := (need.filter (fun n => !i.memb.pushes.any (samePush n))).mapIdx (fun k n => { n with id := i.memb.nextPush + k })
    { i with memb := { i.memb with pushes := i.memb.pushes ++ new, nextPush := i.memb.nextPush + new.length } }
  | _, _ => i

/-- LEDGER_PUTs of a lost home that had arrived in part, discarded: the gradients are lost, counted here and logged, and go into the
next per-step record (R128, R136). -/
def Inst.dropPartials (x : Nat) (h : Home) (i : Inst) : Inst :=
  let mine := fun (o : InOp) => decide (o.hdr.ctx = x) && decide (hdrHome o.hdr = h)
  (i.fab.partials.filter mine).foldl (fun i o => match o.body with
    | .ledgerPut e => if e.kind = 0 then
        (i.tally x 8).event 0x1806 (some x) [(20, 2, h.node), (22, 1, h.idx), (24, 6, e.range), (30, 2, e.step)] else i
    | _ => i) { i with fab := { i.fab with partials := i.fab.partials.filter (fun o => !mine o) } }

/-- One home added to a context's lost set: the amendment, its fault record, and what it does to work in flight
(R101, R111, R119 to R123, R136). `carried` is the cause the set keeps, `cause` that of the fault record. -/
def Inst.amend (x : Nat) (l : LostHome) (cause : Nat) (here : Bool) (detector : Home) (i : Inst) : Inst :=
  let m := (i.ctx x).memb
  if !(i.ctx x).live || isLost m.lost l.home then i
  else if 255 ≤ m.lost.length then i.saturate x l (!here) detector
  else
    let before := (i.ctx x).mapVersion
    let j := i.modMemb x (fun m => { m with lost := sortLost (m.lost ++ [l]), newest := detector,
                                            amendT := m.amendT.filter (fun a => a.1 ≠ l.home) ++ [(l.home, i.view.time)] })
    let k := j.faultRecord { kind := 1, cause := cause, ctx := some x, subject := l.home, lostCount := m.lost.length + 1,
                             before := before, after := (j.ctx x).mapVersion, detector := detector, here := here,
                             detail := if cause = 6 then l.cause else 0 }
    if l.home = k.self then k.fence x 0x06
    else
      let opens := k.cod.opens.filter (fun o => decide (o.ctx = x) && (decide (o.source = l.home) ||
        ((k.image x).bind (fun m => m.fragHome o.frag.stripe 0 o.member)) == some l.home))
      ((((((((k.rollbackAll opens).dropTo x l.home false).dropPartials x l.home).putsStand x l.home).markUnledgered x l.home).replanFor x).adopt x).latePushes x i)

/-- The DEGRADED records of a declaration (R121); a fenced context sends none (R123). -/
def Inst.sendDegraded (x : Nat) (lost : Home) (i : Inst) : Inst :=
  match i.image x with
  | none => i
  | some m =>
    if (i.ctx x).memb.fenced then i else
    let body := OpBody.degraded (i.degradedBody x)
    let j := ((m.toldOf i.self lost).filter (fun h => !isLost (i.ctx x).memb.lost h)).foldl
      (fun i h => i.send h x 0 .degraded body 0) i
    (j.forwardTo x).foldl (fun i h => i.send h x 4 .degraded body 0) j

/-- A home declared lost in every context in which it shares a colony with this instance (R118, R121). -/
def Inst.declareLost (h : Home) (cause : Nat) (i : Inst) : Inst :=
  let xs := (i.ctxs.filter (fun c => c.2.live && !isLost c.2.memb.lost h &&
    (match c.2.map.image with | some m => (m.partners i.self).contains h | none => false))).map Prod.fst
  let j : Inst := { i with hb := { i.hb with partners := i.hb.partners.map (fun p => if p.home = h then { p with lost := true } else p) } }
  xs.foldl (fun i x => (i.amend x { home := h, cause := cause } cause true i.self).sendDegraded x h) j

/-- A record's set merged by union (R121, R378): the detector it names declared the newest entry. -/
def Inst.merge (x : Nat) (d : DegradedBody) (source : Home) (i : Inst) : Inst :=
  let j := d.entries.foldl (fun i l => i.amend x l 0x06 false source) i
  if (j.ctx x).memb.lost.length = (i.ctx x).memb.lost.length then j
  else
    let k := j.modMemb x (fun m => { m with newest := d.detector })
    if (k.ctx x).memb.fenced then k
    else (k.forwardTo x).foldl (fun i h => i.send h x 4 .degraded (.degraded (k.degradedBody x)) 0) k

/-- The first service of a lost member by its stand-in, logged once (R131, R383). -/
def Inst.firstService (x : Nat) (l : Home) (i : Inst) : Inst :=
  if i.flt.firstServed.any (fun f => decide (f.1 = x) && decide (f.2.1 = l)) then i
  else
    let t := (((i.ctx x).memb.amendT.find? (fun a => a.1 = l)).map Prod.snd).getD i.view.time
    ({ i with flt := { i.flt with firstServed := i.flt.firstServed ++ [(x, l, i.view.time)] } }).event 0x1503 (some x)
      [(20, 2, l.node), (22, 1, l.idx), (24, 4, (i.view.time - t) / 50)]

end Sys2Proof.Machine
end

