-- ==== Sys2Proof/Machine/Ledger.lean ====
section
/-! DEFINITION. The ledger a holder keeps: storing, duplicates, space, retirement and reading of entries; the floor
(R94, R95, R106, R107, R110, R138, R190, R240). -/

namespace Sys2Proof.Machine

/-- Whether two entries have one key (R107). -/
def sameKey (a b : LedgerEntry) : Bool :=
  a.kind == b.kind && a.step == b.step &&
    (if a.kind = 0 then a.range == b.range
     else a.layer == b.layer && a.srcNode == b.srcNode && a.srcHome == b.srcHome)

/-- Spans of the LEDGER part in use. -/
def Inst.ledgerSpans (i : Inst) : List (Nat × Nat) := i.cod.ledger.map (fun h => (h.addr, ledgerStored h.entry))

/-- MiB of the LEDGER part free (R383). -/
def Inst.ledgerFreeMiB (i : Inst) : Nat := (i.ledgerPart.2 - (i.ledgerSpans.map Prod.snd).sum) / 2 ^ 20

/-- The floor of a holder that started empty: the lowest step it has accepted a put for since (R138). -/
def floorAfter (m : CtxMemb) (step : Nat) : CtxMemb :=
  if m.ledgerEmpty then { m with floor := some (match m.floor with | some f => min f step | none => step) } else m

/-- A LEDGER_PUT at its holder (R107): the answer, and the entry stored unless its key is held or no space is left. -/
def Inst.ledgerPut (x : Nat) (e : LedgerEntry) (i : Inst) : Inst × RespBody :=
  if i.cod.ledger.any (fun h => decide (h.ctx = x) && sameKey h.entry e) then (i, ansOk 1)
  else match firstFit i.ledgerPart i.ledgerSpans (ledgerStored e) with
    | none => ((i.count Cnt.ledgerFull 1).event 0x1801 (some x) [(24, 4, i.ledgerFreeMiB)], ansRetry 8)
    | some a =>
      let j := i.freshLines a (ledgerStored e)
      let k : Inst := { j with cod := { j.cod with ledger := j.cod.ledger ++ [{ ctx := x, entry := e, addr := a, damaged := false }] } }
      (k.modMemb x (fun m => floorAfter m e.step), ansOk 0)

/-- Entries a retirement frees (R95, R110). -/
def retires (b : RetireBody) (e : LedgerEntry) : Bool :=
  e.kind == b.kind && decide (e.step ≤ b.step) &&
    (if b.kind = 0 then e.range == b.range
     else e.layer == b.layer && e.srcNode == b.scalarNode && e.srcHome == b.scalarHome)

/-- A LEDGER_RETIRE at its holder (R110). -/
def Inst.ledgerRetire (x : Nat) (b : RetireBody) (i : Inst) : Inst × RespBody :=
  ({ i with cod := { i.cod with ledger := i.cod.ledger.filter (fun h => !(decide (h.ctx = x) && retires b h.entry)) } }, ansOk 0)

/-- An entry marked DAMAGED, and logged (R240). -/
def Inst.damageEntry (h : Held) (i : Inst) : Inst :=
  ({ i with cod := { i.cod with ledger := i.cod.ledger.map (fun g => if g = h then { g with damaged := true } else g) } }).event
    0x1804 (some h.ctx) [(24, 6, h.entry.range), (30, 2, h.entry.step)]

/-- A put with the poison flags of its granules: a poisoned granule leaves the entry DAMAGED (R139, R240; log entry 138). -/
def Inst.ledgerStore (x poison : Nat) (e : LedgerEntry) (i : Inst) : Inst × RespBody :=
  let r := i.ledgerPut x e
  if poison = 0 ∨ r.2 ≠ ansOk 0 then r
  else match r.1.cod.ledger.getLast? with
    | some h => (r.1.damageEntry h, r.2)
    | none => r

/-- The lines of an entry read: an UNCORRECTABLE one makes the entry DAMAGED (R240). -/
def Inst.readEntry (h : Held) (i : Inst) : Inst × Bool :=
  let r := i.readSpan false h.addr (ledgerStored h.entry)
  if r.2 || h.damaged then (r.1, r.2 && !h.damaged) else (r.1.damageEntry h, false)

/-- The entry a LEDGER_READ names (R190). -/
def Inst.findHeld (x : Nat) (b : RetireBody) (i : Inst) : Option Held :=
  i.cod.ledger.find? (fun h => decide (h.ctx = x) && h.entry.kind == b.kind && h.entry.step == b.step &&
    (if b.kind = 0 then h.entry.range == b.range
     else h.entry.layer == b.layer && h.entry.srcNode == b.scalarNode && h.entry.srcHome == b.scalarHome))

/-- The floor extension of every answer to a LEDGER_READ (R190). -/
def Inst.floorExt (x : Nat) (e : Option LedgerEntry) (i : Inst) : RespExt :=
  match (i.ctx x).memb.floor with
  | some f => .floor true f e
  | none => .floor false 0 e

/-- A LEDGER_READ at its holder (R190): the stored entry, or ABSENT where there is none or it is DAMAGED (R240). -/
def Inst.ledgerRead (x : Nat) (b : RetireBody) (i : Inst) : Inst × RespBody :=
  match i.findHeld x b with
  | none => (i, { respOf St.absent 0 0 with ext := i.floorExt x none })
  | some h =>
    let r := i.readEntry h
    if r.2 then (r.1, { ansOk 0 with ext := r.1.floorExt x (some h.entry) })
    else (r.1, { respOf St.absent 0 0 with ext := r.1.floorExt x none })

end Sys2Proof.Machine
end

