-- ==== Sys2Proof/Machine/Ingress.lean ====
section
/-! DEFINITION. Gradient ingress: checks, acceptance, ledger copies, partial norms, norms, step scalars
(R13 to R23, R34, R108, R142, R167 to R171, R183, R184, R187 to R190, R415). -/

namespace Sys2Proof.Machine

/-- What a step's record needs beside the counts (R348). -/
def Inst.modMark (x step : Nat) (f : StepMark → StepMark) (i : Inst) : Inst :=
  let t := i.tallyOf x
  let m := (t.marks.find? (fun m => m.step = step)).getD
    { step := step, first := 0, last := 0, updated := 0, missing := 0, flags := 0, layers := [] }
  i.setTally { t with marks := t.marks.filter (fun m => m.step ≠ step) ++ [f m] }

/-- A discard of a gradient or control descriptor, counted and logged with range and step (R383, R405). -/
def Inst.gradDiscard (k code x range step : Nat) (i : Inst) : Inst :=
  (i.tally x k).event code (some x) [(20, 6, range), (26, 6, step)]

/-- A descriptor's first 32 bytes (R167). -/
def descBytes (d : GradDesc) : Bytes :=
  packed 32 [(0, 1, d.kind), (1, 1, d.ctx), (2, 1, d.format), (3, 1, d.flags), (4, 4, d.layer), (8, 8, d.range),
    (16, 8, d.step), (24, 4, d.payloadBytes), (28, 4, d.normSq.toNat)]

/-- GRAD_MALFORMED counted and logged in three entries written in one action (R171, R405). -/
def Inst.malformedGrad (x : Option Nat) (d : Bytes) (i : Inst) : Inst :=
  let j := match x with
    | some x => i.tally x 4
    | none => i.count Cnt.gradMalformed 1
  j.events [(0x190B, 0x19, [(20, 12, field 0 12 d)]), (0x190C, 0x19, [(20, 12, field 12 12 d)]),
    (0x190D, 0x19, [(20, 8, field 24 8 d)])] x none

/-- Works of a range and step. -/
def Inst.workOf (i : Inst) (x q step : Nat) : Option Work :=
  i.opt.work.find? (fun w => decide (w.ctx = x) && decide (w.q = q) && decide (w.step = step))
def Inst.modWork (x q step : Nat) (f : Work → Work) (i : Inst) : Inst :=
  { i with opt := { i.opt with work := i.opt.work.map (fun w =>
      if w.ctx = x ∧ w.q = q ∧ w.step = step then f w else w) } }

/-- The last applied step of a range: that of its MASTER chunk, of an update in flight, or the base step; none at a stand-in
that has not decoded it (R15, R59). -/
def Inst.appliedStep (x q : Nat) (i : Inst) : Inst × Option Nat :=
  match i.image x with
  | none => (i, none)
  | some m =>
    let c : ChunkId := { ctx := x, cls := m.master, q := q, k := 0 }
    let fly := (i.opt.flights.filter (fun f => decide (f.ctx = x) && f.ranges.contains q)).map (fun f => f.step)
    let top := fun (v : Nat) => fly.foldl max (max v m.head.baseStep)
    match i.chunkSlot c with
    | some s =>
      if i.isValid s then
        let r := i.readRec s
        (r.1, some (top (extendStep (i.ctx x).run.step r.2.version)))
      else (i, some (top 0))
    | none =>
      match i.flt.copies.find? (fun k => k.chunk = c) with
      | some k => (i, some (top (extendStep (i.ctx x).run.step k.info.version)))
      | none => (i, none)

/-- The step counter raised by an accepted descriptor (R14). -/
def Inst.advanceStep (x step : Nat) (i : Inst) : Inst := i.modRun x (fun r => { r with step := max r.step step })

/-- The range test of R14: none within 2^31 of the counter fails. -/
def stepInRange (counter step : Nat) : Bool := decide (step < counter + 2 ^ 31) && decide (counter < step + 2 ^ 31)

/-- A program of the active image (R173). -/
def Inst.program (i : Inst) (id : Nat) : Option Program := i.boot.programs.find? (fun p => p.id = id)

/-- Whether the step scalars of a layer and step are kept, under whatever name (R415). -/
def Inst.scalarsOf (i : Inst) (x layer step : Nat) : Option Scalars :=
  i.opt.scalars.find? (fun s => decide (s.ctx = x) && decide (s.layer = layer) && decide (s.step = step))

/-- The step scalars of a layer and step kept in one home's name (R108). -/
def Inst.scalarsFor (i : Inst) (src : Home) (x layer step : Nat) : Option Scalars :=
  i.opt.scalars.find? (fun s => decide (s.src = src) && decide (s.ctx = x) && decide (s.layer = layer) && decide (s.step = step))

/-- The kept scalars changed under one name. -/
def Inst.modScalars (src : Home) (x layer step : Nat) (f : Scalars → Scalars) (i : Inst) : Inst :=
  { i with opt := { i.opt with scalars := i.opt.scalars.map (fun s =>
      if s.src = src ∧ s.ctx = x ∧ s.layer = layer ∧ s.step = step then f s else s) } }

/-- Whether a step has closed on this instance (R33). -/
def Inst.stepClosed (i : Inst) (x step : Nat) : Bool := (i.ctx x).run.closed.contains step

/-- The homes a gradient's ledger copies go to: the ledger holders of both colonies while doubly coded; none for a range with
no coded class (R19, R146). -/
def Inst.putHomes (i : Inst) (x q : Nat) : List Home :=
  match i.image x with
  | none => []
  | some m =>
    if m.uncodedRange q then []
    else
      let old := match (i.dualOf x q).bind (fun d => (d.frags.find? (fun f => f.1.cls = m.master)).map Prod.snd) with
        | some f => ((m.stripe f.stripe).bind (fun s => m.fragHome f.stripe 4 (s.geom.colonyOf f.index))).toList
        | none => []
      ((m.ledgerHolder q).toList ++ old).eraseDups

/-- The home a range's work is done for: this home, or the lost member (R125; log entry 34). -/
def Inst.workHome (i : Inst) (x q : Nat) : Home := match i.serves x q with | some (some l) => l | _ => i.self

/-- Spans of the CLIP part in use (R190). -/
def Inst.clipSpans (i : Inst) : List (Nat × Nat) :=
  (i.opt.work.filter (fun w => decide (w.place = .clip) && decide (w.stage = .pending))).map
    (fun w => (w.clipAt, 64 + (w.payload.length + 63) / 64 * 64))

/-- Whether the NORM of a step has arrived (R187). -/
def Inst.normOf (i : Inst) (x step : Nat) : Option (Word × Bool) :=
  ((i.ctx x).run.norms.find? (fun n => n.1 = step)).map Prod.snd

/-- A range's release point: under EXACT a gradient still waiting for its NORM moves to the CLIP part, or is dropped to be
fetched again (R20, R190). -/
def Inst.releaseWork (x q step : Nat) (i : Inst) : Inst :=
  match i.workOf x q step, i.image x with
  | some w, some m =>
    if m.head.clip = 0 ∧ w.stage = .pending ∧ w.place = .ingress ∧ (i.normOf x step).isNone then
      match firstFit i.clipPart i.clipSpans (64 + (w.payload.length + 63) / 64 * 64) with
      | some a => (i.freshLines a (64 + w.payload.length)).modWork x q step (fun w => { w with place := .clip, clipAt := a })
      | none => (i.count Cnt.clipSpill 1).modWork x q step (fun w => { w with place := .spilled, payload := [] })
    else i
  | _, _ => i

/-- An acknowledgement of a gradient's ledger copy (R20, R146). -/
def Inst.gradAck (x q step : Nat) (h : Home) (i : Inst) : Inst :=
  let j := i.modWork x q step (fun w => { w with putsDue := w.putsDue.filter (· ≠ h), putSent := true, resend := w.resend && w.putsDue.any (· ≠ h) })
  match j.workOf x q step with
  | some w => if w.putsDue.isEmpty then j.releaseWork x q step else j
  | none => j

/-- The ledger copies of a gradient handed to the fabric; one this instance itself holds is stored at once (R19). -/
def Inst.sendPuts (w : Work) (i : Inst) : Inst :=
  let src := i.workHome w.ctx w.q
  let e := ledgerEntryOf src 0 w.q w.step w.layer w.format (w.flags.testBit 1) w.payload
  let marks := i.stagedFlags (.gradient w.ctx w.q w.step)
  w.putsDue.foldl (fun i h =>
    if isLost (i.ctx w.ctx).memb.lost h then i
    else if h = i.self then
      let r := i.ledgerStore w.ctx marks e
      if r.2.status = St.ok then (r.1.count Cnt.ledgerPuts 1).gradAck w.ctx w.q w.step h else r.1
    else ((i.count Cnt.ledgerPuts 1).send h w.ctx 2 (.grad w.ctx w.q w.step) (.ledgerPut e) marks)) i

/-- Own ledger copies that found no space tried again (R107). -/
def Inst.retrySelfPuts (i : Inst) : Inst :=
  (i.opt.work.filter (fun w => w.putsDue.contains i.self && !w.payload.isEmpty)).foldl
    (fun i w => i.sendPuts { w with putsDue := [i.self] }) i

/-- The ranges of a layer this instance serves (R22, R23). -/
def Inst.servedRanges (i : Inst) (x : Nat) (l : LayerRec) : List Nat :=
  match i.image x with
  | none => []
  | some m => ((List.range (m.layerCount l)).map (fun k => m.layerFirst l + k)).filter (fun q => (i.serves x q).isSome)

/-- The partial norm of a layer and step. -/
def Inst.partOf (i : Inst) (x layer step : Nat) : NormPart :=
  (i.opt.parts.find? (fun p => decide (p.ctx = x) && decide (p.layer = layer) && decide (p.step = step))).getD
    { ctx := x, layer := layer, step := step, lastAt := none, arrived := [], sent := false }
def Inst.setPart (p : NormPart) (i : Inst) : Inst :=
  { i with opt := { i.opt with parts := i.opt.parts.filter (fun r =>
      !(decide (r.ctx = p.ctx) && decide (r.layer = p.layer) && decide (r.step = p.step))) ++ [p] } }

/-- The lanes of a gradient that lie within the layer (R56, R169). -/
def MapImage.gradLanes (m : MapImage) (q fmt : Nat) (payload : Bytes) : List Word :=
  ((convertGrad fmt m.width payload).1).take (m.validLanes q)

/-- The sum of squares of ranges in ascending range (R22). -/
def MapImage.partialSum (m : MapImage) (got : List (Nat × Option (Nat × Bytes))) : Word × Nat :=
  (sortBy Prod.fst got).foldl (fun (a : Word × Nat) g =>
    match g.2 with
    | some p => (sumSquares a.1 (m.gradLanes g.1 p.1 p.2), a.2 + 1)
    | none => a) (0, 0)

/-- A partial record (R187). -/
def partialRecord (x layer step : Nat) (incomplete : Bool) (sum : Word) (ranges : Nat) : Bytes :=
  packed 32 [(0, 1, x), (1, 1, b2n incomplete), (4, 4, layer), (8, 8, step), (16, 4, sum.toNat), (20, 4, ranges)]

/-- A partial sent once its LAST_OF_LAYER range and every lower served range have arrived; at END_OF_STEP over what did
arrive, INCOMPLETE, each missing range logged (R22, R23, R170; log entry 35). -/
def Inst.tryPartial (x : Nat) (l : LayerRec) (step : Nat) (force : Bool) (i : Inst) : Inst :=
  match i.image x with
  | none => i
  | some m =>
    let p := i.partOf x l.id step
    if p.sent then i
    else
      let served := i.servedRanges x l
      let need := match p.lastAt with | some z => served.filter (· ≤ z) | none => served
      let missing := need.filter (fun q => !p.arrived.any (fun a => a.1 = q))
      if !force && (p.lastAt.isNone || !missing.isEmpty) then i
      else if force && served.isEmpty && p.arrived.isEmpty then i
      else
        let s := m.partialSum p.arrived
        let holes := p.arrived.filter (fun a => a.2.isNone)
        let inc := force && !missing.isEmpty || !holes.isEmpty || p.lastAt.isNone
        let logged := if force then missing else []
        let j := logged.foldl (fun i q => i.event 0x190E (some x) [(20, 6, q), (26, 6, step)]) (i.setPart { p with sent := true })
        let k := if inc then j.modMark x step (fun k => { k with missing := k.missing + missing.length + holes.length, flags := k.flags ||| 8 }) else j
        k.emitOut (.partialNorm (partialRecord x l.id step inc s.1 s.2))

/-- The NORM a layer uses under LAGGED or EXACT, or as ADAPTIVE decided; none while it is awaited (R188, R189). -/
structure ClipUse where
  norm  : Option (Word × Bool)
  flags : Nat
  deriving DecidableEq, Repr

/-- The decision kept for a layer and step under ADAPTIVE (R189). -/
def Inst.decision (i : Inst) (x layer step : Nat) : Option Bool :=
  (i.opt.decisions.find? (fun d => decide (d.1 = x) && decide (d.2.1 = layer) && decide (d.2.2.1 = step))).map (fun d => d.2.2.2)

/-- The mode in force for a layer and step: whether it is exact; none while ADAPTIVE has not decided (R189). -/
def Inst.clipExact (i : Inst) (m : MapImage) (x layer step : Nat) : Option Bool :=
  match m.head.clip with
  | 0 => some true
  | 1 => some false
  | _ => i.decision x layer step

/-- The norm a layer uses, once it has arrived (R188, R189). Flag bits 2 NORM_EXACT, 3 NORM_LAGGED, 4 NO_NORM. -/
def Inst.clipUse (i : Inst) (m : MapImage) (x layer step : Nat) : Option ClipUse :=
  match i.clipExact m x layer step with
  | none => none
  | some true => (i.normOf x step).map (fun n => { norm := some n, flags := 4 })
  | some false =>
    if step ≤ m.head.baseStep + 1 then some { norm := none, flags := 8 + 16 }
    else (i.normOf x (step - 1)).map (fun n => { norm := some n, flags := 8 })

/-- CLIP, GNORM and FLAGS (R184, R188). -/
def clipValues (u : ClipUse) (tau : Word) : Word × Word × Nat :=
  match u.norm with
  | none => (fOne, 0, u.flags)
  | some (sq, inc) =>
    let f := u.flags + (if inc then 2 else 0)
    let n := fSqrt sq
    if nonFinite sq then (0, n, f + 1)
    else if (f32Val tau).isZero || fCond 3 n tau then (fOne, n, f)
    else (fDiv tau n, n, f)

/-- The active user scalars of a step (R183). -/
def Inst.userSet (i : Inst) (x step : Nat) : Option (List Word) :=
  (((i.ctx x).user.armed.reverse.find? (fun a => decide (a.1 ≤ step))).map Prod.snd)

/-- A wait counted, and logged once (R173, R182, R183). -/
def Inst.noteWait (x kind id code : Nat) (counter : Nat) (args : List (Nat × Nat × Nat)) (i : Inst) : Inst :=
  if i.opt.waits.contains (x, kind, id) then i
  else (({ i with opt := { i.opt with waits := i.opt.waits ++ [(x, kind, id)] } }).count counter 1).event code (some x) args

/-- The ledger holders that hold the ranges of a layer which this instance serves in a home's name (R108). -/
def Inst.scalarHomes (i : Inst) (x : Nat) (l : LayerRec) (src : Home) : List Home :=
  (((i.servedRanges x l).filter (fun q => i.workHome x q = src)).flatMap (fun q => i.putHomes x q)).eraseDups

/-- The SCALARS puts of a layer and step, one to each of its ledger holders, in the name the scalars are kept under (R108). -/
def Inst.sendScalars (s : Scalars) (i : Inst) : Inst :=
  match (i.image s.ctx).bind (fun m => m.layer s.layer) with
  | none => i
  | some l =>
    let hs := i.scalarHomes s.ctx l s.src
    let e := ledgerEntryOf s.src 1 noRange s.step s.layer 0 false (bytesOfWords s.vals)
    let j := i.modScalars s.src s.ctx s.layer s.step (fun _ => { s with acks := hs, sentPut := true })
    let ack := fun (h : Home) (i : Inst) => i.modScalars s.src s.ctx s.layer s.step (fun r => { r with acks := r.acks.filter (· ≠ h) })
    hs.foldl (fun i h =>
      if isLost (i.ctx s.ctx).memb.lost h then i
      else if h = i.self then
        let r := i.ledgerPut s.ctx e
        if r.2.status = St.ok then ack h r.1 else r.1
      else i.send h s.ctx 2 (.scalars s.src s.ctx s.layer s.step) (.ledgerPut e) 0) j

/-- The clip decision of a layer noted for the per-step record (R184, R348): NORM_EXACT, NORM_LAGGED and NO_NORM. -/
def Inst.noteClip (x step layer flags : Nat) (i : Inst) : Inst :=
  i.modMark x step (fun k => { k with layers := k.layers.filter (fun y => y.1 ≠ layer) ++ [(layer, bits flags 4 2)] })

/-- The values of a layer's step scalars (R184): those kept, which are never computed again (R415); else computed from the clip
decision and the user scalars armed for the step; none while no set is armed (R183). -/
def Inst.scalarVals (x : Nat) (l : LayerRec) (step : Nat) (b : List Word) (u : ClipUse) (i : Inst) : Option (List Word) :=
  match i.scalarsOf x l.id step with
  | some s => some s.vals
  | none => (i.userSet x step).map (fun us =>
      let c := clipValues u (b.getD 31 0)
      [c.1, c.2.1] ++ us ++ [w32 c.2.2, lo32 step, hi32 step, 0, 0, 0])

/-- The step scalars kept and put in a home's name as the layer's first update of the step starts; ones that were retired are put
again for a late gradient (R108, R183, R184, R415; log entry 54). -/
def Inst.makeScalars (x : Nat) (l : LayerRec) (step : Nat) (src : Home) (vals : List Word) (i : Inst) : Inst :=
  match i.scalarsFor src x l.id step with
  | some s => if s.retired then i.sendScalars { s with retired := false } else i
  | none =>
    let s : Scalars := { src := src, ctx := x, layer := l.id, step := step, vals := vals, acks := [], sentPut := false, retired := false }
    let j : Inst := { i with opt := { i.opt with scalars := i.opt.scalars ++ [s] } }
    (j.noteClip x step l.id (vals.getD 10 0).toNat).sendScalars s

/-- Kept scalars put again for a gradient accepted after their retirement, before its release point (R415). -/
def Inst.resendScalars (x : Nat) (l : LayerRec) (step : Nat) (src : Home) (i : Inst) : Inst :=
  match i.scalarsOf x l.id step with
  | some s => if s.retired then i.makeScalars x l step src s.vals else i
  | none => i

/-- A discarded gradient's part in the partial norm: the range has arrived with nothing (R170). -/
def Inst.arrivedEmpty (x : Nat) (l : LayerRec) (q step : Nat) (last : Bool) (i : Inst) : Inst :=
  let p := i.partOf x l.id step
  let a := if p.arrived.any (fun g => g.1 = q) then p.arrived else p.arrived ++ [(q, none)]
  (i.setPart { p with arrived := a, lastAt := if last then some q else p.lastAt }).tryPartial x l step false

/-- An accepted gradient: counted, entered pending, its ledger copy and its part in the partial norm (R14 to R16, R19, R22, R34). -/
def Inst.acceptGrad (x : Nat) (m : MapImage) (l : LayerRec) (d : GradDesc) (payload : Bytes) (serving : Bool) (i : Inst) : Inst :=
  let late := i.stepClosed x d.step
  let a := (i.advanceStep x d.step).tally x 0
  let b := if d.flags.testBit 1 then a.tally x 6 else a
  let c := if late then b.tally x 7 else b
  let e := c.count Cnt.gradOverflow (gradOverflows d.format m.width (m.validLanes d.range) payload)
  let w : Work := { ctx := x, q := d.range, step := d.step, layer := l.id, format := d.format, flags := d.flags,
                    payload := payload, stage := .pending, place := .ingress, clipAt := 0,
                    putsDue := if serving then i.putHomes x d.range else [], putSent := false, resend := false, coded := false,
                    emitted := false, retired := false }
  let order := if e.opt.layerOrder.contains (x, l.id, d.step) then e.opt.layerOrder else e.opt.layerOrder ++ [(x, l.id, d.step)]
  let rest := e.opt.work.filter (fun v => !(decide (v.ctx = x) && decide (v.q = d.range) && decide (v.step = d.step)))
  let f : Inst := ({ e with opt := { e.opt with work := rest ++ [w], layerOrder := order } }).unmark (.gradient x d.range d.step)
  let g := (f.modRun x (fun r => { r with opened := insertNat d.step r.opened })).modMark x d.step (fun k =>
    { k with first := if k.first = 0 then i.view.time else k.first, last := i.view.time })
  if serving then
    let p := g.partOf x l.id d.step
    let got := p.arrived.filter (fun y => y.1 ≠ d.range) ++ [(d.range, some (d.format, payload))]
    let h := (g.setPart { p with arrived := got, lastAt := if d.flags.testBit 0 then some d.range else p.lastAt }).tryPartial x l d.step false
    (h.sendPuts w).resendScalars x l d.step (h.workHome x d.range)
  else g

/-- A gradient after its framing: homed here, in range, new, of a running layer, well formed, not poisoned, with its
scalars kept if late (R13 to R16, R142, R156, R170, R415). -/
def Inst.gradient (g : GradItem) (i : Inst) : Inst :=
  let d := g.desc
  let x := d.ctx
  match i.image x with
  | none => i.gradDiscard 2 0x1907 x d.range d.step
  | some m =>
    let gone := i.memb.departed.find? (fun y => decide (y.1 = x) && decide (y.2.1 = d.range))
    let serving := (i.serves x d.range).isSome
    if (i.ctx x).memb.fenced || (i.ctx x).memb.offline then i.gradDiscard 2 0x1907 x d.range d.step
    else match gone, m.layerOf d.range with
      | some y, some l =>
        let e := ledgerEntryOf i.self 0 d.range d.step l.id d.format (d.flags.testBit 1) g.payload
        i.send y.2.2 x 3 .forward (.gradForward e) (if g.poisoned then 2 ^ (ledgerGranules e).length - 1 else 0)
      | _, none => i.gradDiscard 2 0x1907 x d.range d.step
      | none, some l =>
        if !serving && !i.isIncoming x d.range then i.gradDiscard 2 0x1907 x d.range d.step
        else if !stepInRange (i.ctx x).run.step d.step then i.gradDiscard 3 0x1908 x d.range d.step
        else
          let v := i.appliedStep x d.range
          let j := v.1
          let dup := match v.2 with | some s => decide (d.step ≤ s) | none => decide (d.step ≤ m.head.baseStep)
          if dup || (match j.workOf x d.range d.step with | some w => w.stage != .skipped | none => false) then j.gradDiscard 1 0x1909 x d.range d.step
          else if (j.ctx x).run.halted.contains l.id then j.tally x 11
          else if d.layer ≠ l.id ∨ gradWellFormed d.format m.width d.payloadBytes g.payload = false then
            (j.malformedGrad (some x) (descBytes d)).arrivedEmpty x l d.range d.step (d.flags.testBit 0)
          else if g.poisoned then
            (j.gradDiscard 5 0x190A x d.range d.step).arrivedEmpty x l d.range d.step (d.flags.testBit 0)
          else
            let needs := match j.program l.program with | some p => p.scalars | none => false
            if j.stepClosed x d.step && needs && (j.scalarsOf x l.id d.step).isNone then
              (j.gradDiscard 7 0x1911 x d.range d.step)
            else j.acceptGrad x m l d g.payload serving

/-- Whether an item's framing is right: a known KIND, a context of the die, and as many beats as its payload needs (R171). -/
def gradFramed (g : GradItem) : Bool :=
  decide (g.desc.kind ≤ 2) && decide (g.desc.ctx ≤ 63) &&
    (if g.desc.kind = 0 then decide (g.beats = cdiv g.desc.payloadBytes 128) && decide (g.payload.length = g.desc.payloadBytes)
     else decide (g.desc.format = 0) && decide (g.desc.layer = 0) && decide (g.desc.range = 0) &&
       decide (g.desc.payloadBytes = 0) && decide (g.beats = 0))

/-- The context of a descriptor for the log, where it names one. -/
def descCtx (d : GradDesc) : Option Nat := if d.ctx ≤ 63 then some d.ctx else none

/-- Credit on GRAD_IN: the instance is ACTIVE and its ingress share has room (R17, R18, R316). -/
def Inst.gradCredit (i : Inst) (x n : Nat) : Bool := i.pw.state == .active && i.ctxRoom x 0 n

/-- Whether a descriptor's step is the base step of its context or an earlier one (R59). -/
def Inst.atBase (x step : Nat) (i : Inst) : Bool := match i.image x with | some m => decide (step ≤ m.head.baseStep) | none => false

/-- The checks an END_OF_STEP or NORM shares (R59, R171): whether it is taken. -/
def Inst.control (d : GradDesc) (again : Bool) (i : Inst) : Inst × Bool :=
  let x := d.ctx
  let dup := again || i.atBase x d.step
  if !(i.ctx x).live || (i.ctx x).memb.fenced || (i.ctx x).memb.offline then (i.gradDiscard 2 0x1907 x 0 d.step, false)
  else if dup then (i.gradDiscard 1 0x1909 x 0 d.step, false)
  else if !stepInRange (i.ctx x).run.step d.step then (i.gradDiscard 3 0x1908 x 0 d.step, false)
  else (i.advanceStep x d.step, true)

/-- END_OF_STEP (R23, R33, R171): the partials still owed go out, and the step may close. -/
def Inst.endOfStep (d : GradDesc) (i : Inst) : Inst :=
  let x := d.ctx
  let c := i.control d (i.stepClosed x d.step || (i.ctx x).run.endSteps.any (fun e => e.1 = d.step))
  if !c.2 then c.1
  else
    let j := c.1.modRun x (fun r => { r with endSteps := r.endSteps ++ [(d.step, i.view.time)], opened := insertNat d.step r.opened })
    match j.image x with
    | none => j
    | some m => (sortBy (fun l => l.firstParam) m.layers).foldl (fun i l => i.tryPartial x l d.step true) j

/-- What a LEDGER_READ for a dropped gradient found (R190): it is back in ingress; an entry that is ABSENT, or whose PAYLOAD_CRC
fails and which therefore counts as absent (R107), leaves the range's step skipped. -/
def Inst.refetched (x q step : Nat) (e : Option LedgerEntry) (i : Inst) : Inst :=
  let lose := fun (i : Inst) =>
    let j := i.tally x 9
    ({ j with opt := { j.opt with work := j.opt.work.filter (fun w => !(decide (w.ctx = x) && decide (w.q = q) && decide (w.step = step))) } } : Inst)
  match e with
  | some e =>
    if crc64 e.payload = e.crc then
      (i.unmark (.gradient x q step)).modWork x q step (fun w => { w with place := .ingress, payload := e.payload })
    else lose ((i.count Cnt.ledgerCrcFail 1).event 0x1805 (some x) [(24, 6, q), (30, 2, step)])
  | none => lose i

/-- Gradients dropped from a full CLIP part fetched again now that their NORM has come (R190); a ledger this instance itself
holds is read at once. -/
def Inst.refetch (x step : Nat) (i : Inst) : Inst :=
  (i.opt.work.filter (fun w => decide (w.ctx = x) && decide (w.step = step) && decide (w.place = .spilled))).foldl
    (fun i w =>
      let b : RetireBody := { range := w.q, step := w.step, layer := 0, kind := 0, scalarNode := 0, scalarHome := 0 }
      match (i.putHomes x w.q).head? with
      | some h =>
        if h = i.self then
          let r := i.ledgerRead x b
          r.1.refetched x w.q w.step (match r.2.ext with | .floor _ _ e => e | _ => none)
        else i.send h x 2 (.refetch x w.q w.step) (.ledgerRead b) 0
      | none => i) i

/-- NORM (R171, R187, R188): held for the two most recent steps; the scales of the layers waiting on it are computed. -/
def Inst.norm (d : GradDesc) (i : Inst) : Inst :=
  let x := d.ctx
  let c := i.control d ((i.ctx x).run.normSeen.contains d.step)
  if !c.2 then c.1
  else
    let inc := d.flags.testBit 1
    let keep := fun (l : List (Nat × Word × Bool)) => lastN 2 (insertBy Prod.fst (d.step, d.normSq, inc) l)
    let j := c.1.modRun x (fun r =>
      { r with norms := keep r.norms, normSeen := insertNat d.step r.normSeen, normLate := r.normLate.filter (· ≠ d.step) })
    let k := if inc then (j.event 0x190F (some x) [(24, 6, d.step)]).modMark x d.step (fun m => { m with flags := m.flags ||| 1 }) else j
    k.refetch x d.step

end Sys2Proof.Machine
end

