-- ==== Sys2Proof/Machine/Halt.lean ====
section
/-! DEFINITION. Halted layers and lost chunks; the contents of a unit's chunks at its home or its stand-in
(R125, R126, R139 to R142, R192, R240). -/

namespace Sys2Proof.Machine

/-- A fault record about a layer or a lost chunk of this home (R142, R378). -/
def Inst.layerRecord (x layer kind cause stripe row rows : Nat) (i : Inst) : Inst :=
  let v := (i.ctx x).mapVersion
  i.faultRecord { kind := kind, cause := cause, ctx := some x, subject := i.self, detector := i.self,
                  lostCount := (i.ctx x).memb.lost.length, before := v, after := v, stripe := stripe, firstRow := row,
                  rows := rows, layer := layer }

/-- A layer marked HALTED, recorded when it was not so before (R142). -/
def Inst.haltLayer (x layer cause stripe : Nat) (i : Inst) : Inst :=
  if (i.ctx x).run.halted.contains layer then i
  else (i.modRun x (fun r => { r with halted := insertNat layer r.halted })).layerRecord x layer 5 cause stripe 0 0

/-- The record of a chunk LOST_UNREPAIRED, and its layer HALTED (R142). -/
def Inst.lostRecord (c : ChunkId) (f : Option FragId) (cause : Nat) (i : Inst) : Inst :=
  match i.image c.ctx with
  | none => i
  | some m =>
    let l := m.chunkLayer c
    let st := (f.map (fun f => f.stripe)).getD 0
    (i.layerRecord c.ctx l 4 cause st ((f.map (fun f => f.row)).getD 0) 1).haltLayer c.ctx l cause st

/-- A chunk LOST_UNREPAIRED at its own home: its version frozen, POISON and LOST_UNREPAIRED set; counted and recorded as it becomes
so (R142, R254). -/
def Inst.loseChunk (c : ChunkId) (slot cause : Nat) (i : Inst) : Inst :=
  let r := i.readRec slot
  if r.2.lost then r.1
  else ((r.1.writeRec slot { r.2 with attr := r.2.attr ||| 5 }).count Cnt.eccLost 1).lostRecord c (i.chunkFrags c).head? cause

/-- What a read of a chunk's contents gives: record and bytes, or nothing while a repair runs (R240, R243). -/
structure ChunkRead where
  chunk : ChunkId
  info  : ChunkRec
  bytes : Bytes
  deriving DecidableEq, Repr

/-- A failed line of a chunk: repaired from its stripe, from its shadow sub-row, or poisoned (R240). -/
def Inst.chunkFailed (c : ChunkId) (slot line : Nat) (scrub : Bool) (i : Inst) : Inst :=
  match i.image c.ctx with
  | none => i
  | some m =>
    match m.protOf c with
    | 0 => i.startChunkRepair c slot line scrub
    | 1 => i.startShadowRepair c slot line
    | _ =>
      let tileOf := fun (r : Refresh) => match i.paramBlock c.ctx (((m.layer r.layer).map (fun l => l.paramBlock)).getD 0) with
        | some b => (m.blockChunks c.ctx r.layer (pcWords b).scratchCls r.tile).contains c
        | none => false
      if i.opt.refreshes.any (fun r => decide (r.ctx = c.ctx) && tileOf r) then
        { i with opt := { i.opt with refreshes := i.opt.refreshes.filter (fun r => !(decide (r.ctx = c.ctx) && tileOf r)) } }
      else i.setAttr slot 1

/-- The contents of a chunk this instance homes; a LOST_UNREPAIRED one reads as zeros (R142). A line that fails starts what R240 gives it; a NONE chunk is then poisoned
and its read goes on. -/
def Inst.readHome (c : ChunkId) (slot : Nat) (i : Inst) : Inst × Option ChunkRead :=
  let l := i.readRec slot
  if l.1.repairing slot then (l.1, none)
  else if l.2.lost then (l.1, some { chunk := c, info := l.2, bytes := List.replicate 4096 0 })
  else
    let d := l.1.readSlot slot
    match (failedLines d.2).head? with
    | some l =>
      let j := d.1.chunkFailed c slot l false
      if j.repairing slot then (j, none)
      else
        let r := j.readRec slot
        (r.1, some { chunk := c, info := r.2, bytes := joinLines d.2 })
    | none =>
      let r := d.1.readRec slot
      (r.1, some { chunk := c, info := r.2, bytes := joinLines d.2 })

/-- The version a stand-in's range stands at: that of its MASTER copy, else the base step. -/
def Inst.standinVersion (m : MapImage) (x q : Nat) (i : Inst) : Nat :=
  match i.flt.copies.find? (fun k => k.chunk = { ctx := x, cls := m.master, q := q, k := 0 }) with
  | some k => k.info.version
  | none => m.head.baseStep % 2 ^ 32

/-- The contents of a chunk at a stand-in: its copy; a NONE chunk without one is zeros at the range's version (R125). -/
def Inst.readCopy (m : MapImage) (c : ChunkId) (i : Inst) : Option ChunkRead :=
  match i.copyOf c with
  | some k => some { chunk := c, info := k.info, bytes := k.bytes }
  | none =>
    if m.protOf c = 2 then
      some { chunk := c, info := { version := i.standinVersion m c.ctx c.q, digest := 0, attr := 0 },
             bytes := List.replicate 4096 0 }
    else none

/-- The contents of chunks, in order; none while one of them cannot be had. -/
def Inst.readChunks (m : MapImage) (standin : Bool) : List ChunkId → Inst → Inst × Option (List ChunkRead)
  | [], i => (i, some [])
  | c :: t, i =>
    let r := if standin then (i, i.readCopy m c)
             else match i.chunkSlot c with
               | some s => i.readHome c s
               | none => (i, none)
    let rest := Inst.readChunks m standin t r.1
    match r.2, rest.2 with
    | some a, some l => (rest.1, some (a :: l))
    | _, _ => (rest.1, none)

/-- A copy at a stand-in, written or replaced (R126). -/
def Inst.putCopy (k : Copy) (i : Inst) : Inst :=
  ({ i with flt := { i.flt with copies := i.flt.copies.filter (fun d => d.chunk ≠ k.chunk) ++ [k] } } : Inst).unmark k.chunk.copied

end Sys2Proof.Machine
end

