-- ==== Sys2Proof/Machine/Update.lean ====
section
/-! DEFINITION. Range and tile updates: when one starts, the poison skip, the write-back, backlog records, refreshes
(R24 to R27, R89, R103, R104, R114, R186, R189, R192 to R197, R229). -/

namespace Sys2Proof.Machine

/-- Whether tile geometry keeps R192 and R193: tiles fill the layer, and each has its factor and its scratch block, of FP32 and of
protection NONE (log entry 140). -/
def MapImage.tileOk (m : MapImage) (l : LayerRec) (w : PcWords) : Bool :=
  let tiles := l.paramCount / (w.tr * w.tc)
  let sq := (w.tr * w.tr + w.tc * w.tc) / 1024
  let fit := fun (cls n : Nat) =>
    let bs := m.layerBlocks l.id cls
    decide (tiles ≤ bs.length) && (bs.take tiles).all (fun b => b.chunks = n)
  decide (m.width ≤ w.tr * w.tc) && decide (l.paramCount % (w.tr * w.tc) = 0) && fit w.factorCls (2 * sq) && fit w.scratchCls sq &&
    (match m.cls w.factorCls, m.cls w.scratchCls with
     | some f, some s => decide (f.kind ≠ 0) && decide (f.format = 0) && decide (s.kind ≠ 0) && decide (s.prot = 2)
     | _, _ => false)

/-- The chunks of a unit: every ELEMENT class of its ranges, then its factor block (R194). -/
def Inst.unitReads (m : MapImage) (x : Nat) (u : UpdUnit) : List ChunkId := u.ranges.flatMap (m.chunksOf x) ++ u.factor

/-- A range has this step as its lowest pending one, complete in ingress staging or in the CLIP part, and no earlier step of it
waits for a ledger copy to be sent again (R15, R21, R24). -/
def Inst.workReady (x step q : Nat) (i : Inst) : Bool :=
  match i.workOf x q step with
  | some w => w.stage == .pending && (w.place == .ingress || w.place == .clip) &&
      i.opt.work.all (fun v => !(decide (v.ctx = x) && decide (v.q = q) && decide (v.step < step) &&
        (v.stage == .pending || v.stage == .updating || (v.resend && !v.putsDue.isEmpty))))
  | none => false

/-- Bytes a backlog record takes: its header and its granules (R104). -/
def recordBytes (old new : Bytes) : Nat := 256 * (1 + ((List.zip (piecesOf 256 old) (piecesOf 256 new)).filter (fun p => p.1 ≠ p.2)).length)

/-- Spans of the BACKLOG part in use (R104, R415): the kept scalars lie at its top end (log entry 133). -/
def Inst.backlogSpans (i : Inst) : List (Nat × Nat) :=
  i.cod.backlog.filterMap (fun r => r.spillAt.map (fun a => (a, 256 * (1 + r.delta.length)))) ++
    ((i.opt.scalars.map (fun s => (s.ctx, s.layer, s.step))).eraseDups).mapIdx (fun n _ =>
      (i.backlogPart.1 + i.backlogPart.2 - 64 * (n + 1), 64))

/-- Bytes of each backlog record a flight will need. -/
def Flight.needs (m : MapImage) (f : Flight) : List Nat :=
  f.newChunks.filterMap (fun c => if m.protOf c.chunk = 2 then none else some (recordBytes c.old c.new))

/-- Backlog records that have been spilled (R104). -/
def Inst.spilledCount (i : Inst) : Nat := (i.cod.backlog.filter (fun r => r.spillAt.isSome)).length

/-- Whether records of a context find room one after another, each in staging or else in the BACKLOG part (R104): what they take
of staging, and the spans they take. -/
def Inst.placeRecords (x : Nat) (i : Inst) : List Nat → Nat × List (Nat × Nat) → Option (Nat × List (Nat × Nat))
  | [], p => some p
  | n :: t, p =>
    if i.ctxRoom x 1 (p.1 + n) then Inst.placeRecords x i t (p.1 + n, p.2)
    else match firstFit i.backlogPart (i.backlogSpans ++ p.2) n with
      | some a => Inst.placeRecords x i t (p.1, p.2 ++ [(a, n)])
      | none => none

/-- Whether backlog records of these sizes find room, beside those of the updates in flight (R104). -/
def Inst.backlogRoom (x : Nat) (ns : List Nat) (i : Inst) : Bool :=
  (i.placeRecords x (i.opt.flights.flatMap (fun f => match i.image f.ctx with | some m => f.needs m | none => []) ++ ns) (0, [])).isSome

/-- BACKLOG_FULL, counted and logged once for each wait (R104). -/
def Inst.noteFull (x q : Nat) (i : Inst) : Inst :=
  if i.opt.waits.contains (x, 4, q) then i
  else (({ i with opt := { i.opt with waits := i.opt.waits ++ [(x, 4, q)] } }).count Cnt.backlogFull 1).event
    0x1401 (some x) [(24, 4, i.spilledCount)]

/-- The conditions of R24 that need no choice and no access: the context runs, the unit is at rest, its lag is below D. -/
def Inst.unitOpen (m : MapImage) (x step : Nat) (u : UpdUnit) (i : Inst) : Bool :=
  let c := i.ctx x
  i.pw.state == .active && !c.memb.fenced && !c.memb.offline && !c.memb.saturated && !c.run.paused && c.map.slot ≠ 2 &&
    !c.run.halted.contains u.layer.id && decide (i.opt.flights.length < 4) && i.ctxRoom x 2 1 &&
    u.ranges.all (fun q => i.workReady x step q && (i.serves x q).isSome &&
      !i.opt.flights.any (fun f => decide (f.ctx = x) && f.ranges.contains q) &&
      !i.decoding x q && !i.loadHolds x q && !(match i.movingOf x q with | some mv => mv.cutSent | none => false)) &&
    (Inst.unitReads m x u).all (fun k => m.protOf k = 2 || decide (i.lagOf k < m.head.depth))

/-- What an attempt to start a unit did. -/
inductive Tried where
  | waits (i : Inst)
  | done (i : Inst)
  deriving DecidableEq, Repr

/-- The poison skip of R26: the gradients of the unit's ranges are consumed, and a put still waiting is not sent. What is left
of the gradient only stands for its ledger entry, which stays. -/
def Inst.skipUnit (x step : Nat) (u : UpdUnit) (i : Inst) : Inst :=
  u.ranges.foldl (fun i q =>
    let j := i.gradDiscard 10 0x1910 x q step
    { (j.modWork x q step (fun w => { w with stage := .skipped, payload := [], emitted := true, putsDue := [] })) with
             fab := { j.fab with outq := j.fab.outq.filter (fun o => o.owner ≠ .grad x q step),
                                 retry := j.fab.retry.filter (fun o => o.owner ≠ .grad x q step) } }) i

/-- The refresh that installs at a step (R195): the one due at or before it. -/
def Inst.dueRefresh (x step : Nat) (u : UpdUnit) (i : Inst) : Option Refresh :=
  i.opt.refreshes.find? (fun r => decide (r.ctx = x) && decide (r.layer = u.layer.id) && decide (r.tile = u.tile) && decide (r.due ≤ step))

/-- The pending roots of a refresh: from the scratch block at the home, computed again at a stand-in (R196, R197). -/
def rootsOf (w : PcWords) (nine : Bool) (r : Refresh) : Mat × Mat :=
  (invRoot nine w.eps w.iters (matOf w.tr (wordsOfBytes r.lf)), invRoot nine w.eps w.iters (matOf w.tc (wordsOfBytes r.rf)))

/-- The pending roots as the scratch block holds them. -/
def rootsIn (w : PcWords) (b : Bytes) : Mat × Mat :=
  let ws := wordsOfBytes b
  (matOf w.tr (ws.take (w.tr * w.tr)), matOf w.tc ((ws.drop (w.tr * w.tr)).take (w.tc * w.tc)))

/-- A refresh that holds its tile, and the tile's next ones, run in class 2 (R196, R201, R352). -/
def Inst.refreshLate (r : Refresh) (i : Inst) : Inst :=
  let t := (r.ctx, r.layer, r.tile)
  { i with opt := { i.opt with refreshes := i.opt.refreshes.map (fun s => if s = r then { s with held := true } else s) },
           arr := { i.arr with late := if i.arr.late.contains t then i.arr.late else i.arr.late ++ [t] } }

/-- A refresh finished before its due step: the tile's next ones run in class 4 again (R352). -/
def Inst.refreshTimely (r : Refresh) (i : Inst) : Inst :=
  if r.held then i else { i with arr := { i.arr with late := i.arr.late.filter (· ≠ (r.ctx, r.layer, r.tile)) } }

/-- The roots to install: `none` while the refresh or its scratch block must be waited for. -/
def Inst.takeRoots (m : MapImage) (x step : Nat) (u : UpdUnit) (standin : Bool) (i : Inst) : Inst × Option (Option (Mat × Mat)) :=
  match u.pc, i.dueRefresh x step u with
  | some w, some r =>
    if !r.done then (i.refreshLate r, none)
    else if standin then (i, some (some (rootsOf w (m.head.passes == 9) r)))
    else
      let s := i.readChunks m false u.scratch
      match s.2, s.1.dueRefresh x step u with
      | some l, some _ => (s.1, some (some (rootsIn w ((l.map (fun c => c.bytes)).flatten))))
      | _, none => (s.1, some none)
      | none, some _ => (s.1, none)
  | _, _ => (i, some none)

/-- Whether a refresh has been installed in a unit's factor block: a chunk of its roots carries the version of an update (R193,
R194). -/
def Inst.rooted (m : MapImage) (step : Nat) (u : UpdUnit) (reads : List ChunkRead) (i : Inst) : Bool :=
  reads.any (fun r => (u.factor.drop (u.factor.length / 2)).contains r.chunk && decide (m.head.baseStep < extendStep step r.info.version) &&
    (match i.chunkSlot r.chunk with
     | some s => i.isValid s
     | none => i.flt.copies.any (fun k => decide (k.chunk = r.chunk) && !k.fresh)))

/-- A new update put in flight (R24, R186). -/
def Inst.fly (m : MapImage) (x step : Nat) (u : UpdUnit) (b : List Word) (p : Program) (use : ClipUse) (standin : Option Home)
    (reads : List ChunkRead) (roots : Option (Mat × Mat)) (i : Inst) : Tried :=
  let vals := (i.scalarVals x u.layer step b use).getD []
  let scal := if p.scalars then vals else []
  let inp : UnitIn := { m := m, ctx := x, step := step, prog := p, params := b, scal := scal,
                        clip := if p.scalars then vals.getD 0 0 else (clipValues use (b.getD 31 0)).1, unit := u,
                        grads := u.ranges.filterMap (fun q => (i.workOf x q step).map (fun w => (q, w.format, w.payload))),
                        bytes := reads.map (fun r => (r.chunk, r.bytes)), roots := roots,
                        rooted := i.rooted m step u reads }
  let out := inp.run
  let f : Flight := { ctx := x, step := step, layer := u.layer.id, ranges := u.ranges, tformat := u.layer.tformat,
                      newChunks := out.chunks.map (fun c => { chunk := c.1, old := inp.get c.1, new := c.2 }), standin := standin,
                      tile := u.pc.map (fun _ => u.tile) }
  if !i.backlogRoom x (f.needs m) then .waits (i.noteFull x (u.ranges.headD 0))
  else
    let ref := match out.refresh, u.pc with
      | some lr, some w => [({ ctx := x, layer := u.layer.id, tile := u.tile, due := step + w.rootLag, done := false, held := false,
                               lf := bytesOfWords lr.1.flatten, rf := bytesOfWords lr.2.flatten } : Refresh)]
      | _, _ => []
    let kept := if roots.isSome then i.opt.refreshes.filter (fun r =>
      !(decide (r.ctx = x) && decide (r.layer = u.layer.id) && decide (r.tile = u.tile) && decide (r.due ≤ step))) else i.opt.refreshes
    let used := (x, 3, u.layer.paramBlock)
    let j : Inst := { f.newChunks.foldl (fun i c => i.unmark c.chunk.staged) i with opt := { i.opt with
      flights := i.opt.flights ++ [f], refreshes := kept ++ ref,
      waits := (if i.opt.waits.contains used then i.opt.waits else i.opt.waits ++ [used]).filter (fun w => w ≠ (x, 4, u.ranges.headD 0)),
      work := i.opt.work.map (fun w => if w.ctx = x ∧ u.ranges.contains w.q ∧ w.step = step then { w with stage := .updating } else w) } }
    let k := j.modRun x (fun r => { r with started := some (max (r.started.getD 0) step) })
    .done (if p.scalars then k.makeScalars x u.layer step (k.workHome x (u.ranges.headD 0)) vals else k.noteClip x step u.layer.id use.flags)

/-- Gradients of a unit read back from the CLIP part; one with an UNCORRECTABLE line is dropped and fetched again (R190, R240). -/
def Inst.readClip (x step : Nat) (u : UpdUnit) (i : Inst) : Inst × Bool :=
  u.ranges.foldl (fun (a : Inst × Bool) q =>
    match a.1.workOf x q step with
    | some w =>
      if w.place = .clip then
        let r := a.1.readSpan false w.clipAt (64 + w.payload.length)
        if r.2 then (r.1, a.2)
        else (((r.1.count Cnt.clipSpill 1).modWork x q step (fun v => { v with place := .spilled, payload := [] })).refetch x step, false)
      else a
    | none => a) (i, true)

/-- Ranges of a unit whose step a stand-in's decode shows to be applied already. -/
def Inst.appliedIn (m : MapImage) (x step : Nat) (u : UpdUnit) (reads : List ChunkRead) (i : Inst) : List Nat :=
  u.ranges.filter (fun q => reads.any (fun k => decide (k.chunk = { ctx := x, cls := m.master, q := q, k := 0 }) &&
    decide (step ≤ extendStep (i.ctx x).run.step k.info.version)))

/-- Gradients found to be duplicates once the range's version is known: discarded, counted and logged (R15, R16). -/
def Inst.dropDups (x step : Nat) (qs : List Nat) (i : Inst) : Inst :=
  qs.foldl (fun i q =>
    let j := i.gradDiscard 1 0x1909 x q step
    { j with opt := { j.opt with work := j.opt.work.filter (fun w => !(decide (w.ctx = x) && decide (w.q = q) && decide (w.step = step))) },
             fab := { j.fab with outq := j.fab.outq.filter (fun o => o.owner ≠ .grad x q step),
                                 retry := j.fab.retry.filter (fun o => o.owner ≠ .grad x q step) } }) i

/-- A unit whose gradients, clip scale and contents are there: duplicates dropped, skipped where a chunk is poisoned or a staging line of
a gradient is, else computed (R15, R24 to R27, R139; log entry 138). -/
def Inst.startUnit (m : MapImage) (x step : Nat) (u : UpdUnit) (b : List Word) (p : Program) (use : ClipUse)
    (standin : Option Home) (i : Inst) : Tried :=
  let g := i.readClip x step u
  let r := if g.2 then g.1.readChunks m standin.isSome (Inst.unitReads m x u) else (g.1, none)
  match r.2 with
  | none => .waits (match standin with | some l => if g.2 then r.1.startStandin x (u.ranges.headD 0) l else r.1 | none => r.1)
  | some reads =>
    let dups := if standin.isSome then r.1.appliedIn m x step u reads else []
    if !dups.isEmpty then .done (r.1.dropDups x step dups)
    else if reads.any (fun k => k.info.poison) || u.ranges.any (fun q => r.1.stagedPoison (.gradient x q step)) then
      .done (r.1.skipUnit x step u)
    else
      let t := r.1.takeRoots m x step u standin.isSome
      match t.2 with
      | none => .waits t.1
      | some roots => t.1.fly m x step u b p use standin reads roots

/-- ADAPTIVE's decision for a layer and step, taken once (R189). -/
def Inst.decideClip (m : MapImage) (x layer step : Nat) (i : Inst) : Inst :=
  if m.head.clip ≤ 1 ∨ (i.decision x layer step).isSome then i
  else { i with opt := { i.opt with decisions := i.opt.decisions ++ [(x, layer, step, (i.normOf x step).isSome)] } }

/-- The clip decision an update takes: the one recorded with kept scalars, which awaits no NORM (R184, R189), else by the clip
mode. -/
def Inst.clipNow (m : MapImage) (x layer step : Nat) (p : Program) (i : Inst) : Option ClipUse :=
  match i.scalarsOf x layer step with
  | some s => if p.scalars then some { norm := none, flags := (s.vals.getD 10 0).toNat } else i.clipUse m x layer step
  | none => i.clipUse m x layer step

/-- The as-whom of a unit's update. -/
def Inst.unitStandin (x : Nat) (u : UpdUnit) (i : Inst) : Option Home :=
  match i.serves x (u.ranges.headD 0) with | some (some l) => some l | _ => none

/-- A unit that is open: its program, its parameters, its geometry, its clip scale and its scalars are looked at in turn. -/
def Inst.tryOpen (m : MapImage) (x step : Nat) (u : UpdUnit) (i : Inst) : Tried :=
  let l := u.layer
  match i.program l.program, i.paramBlock x l.paramBlock with
  | none, _ => .waits (i.noteWait x 0 l.id 0x1902 Cnt.noProgram [(20, 2, l.program), (24, 4, l.id)])
  | some _, none => .waits (i.noteWait x 1 l.id 0x1903 Cnt.noParams [(20, 1, l.paramBlock), (24, 4, l.id)])
  | some p, some b =>
    if (pcWords b).on && !m.tileOk l (pcWords b) then .done (i.haltLayer x l.id 0x25 0)
    else
      let j := i.decideClip m x l.id step
      match j.clipNow m x l.id step p with
      | none => .waits j
      | some use =>
        if p.scalars && (j.scalarVals x l step b use).isNone then
          .waits (j.noteWait x 2 0 0x1205 Cnt.noScalars [(24, 4, l.id)])
        else j.startUnit m x step u b p use (j.unitStandin x u)

/-- One attempt. -/
def Inst.tryUnit (x step q : Nat) (i : Inst) : Tried :=
  match i.image x, i.unitOf x q with
  | some m, some u => if u.ranges.head? = some q && i.unitOpen m x step u then i.tryOpen m x step u else .waits i
  | _, _ => .waits i

/-- Pending gradients in the order of R24: layers as their first range arrived, ranges ascending. -/
def Inst.startOrder (i : Inst) : List (Nat × Nat × Nat) :=
  i.opt.layerOrder.flatMap (fun o =>
    (sortBy (fun w => w.q) (i.opt.work.filter (fun w => decide (w.ctx = o.1) && decide (w.layer = o.2.1) &&
      decide (w.step = o.2.2) && decide (w.stage = .pending)))).map (fun w => (o.1, o.2.2, w.q)))

/-- The first of a list of candidates that starts, skips or halts. -/
def Inst.startFirst : List (Nat × Nat × Nat) → Inst → Inst
  | [], i => i
  | c :: t, i =>
    match i.tryUnit c.1 c.2.1 c.2.2 with
    | .done j => j
    | .waits j => Inst.startFirst t j

/-- UPDATE_START (R24). -/
def Inst.updateStart (us : List Upset) (i : Inst) : Inst :=
  let j := i.upsets us
  if j.running then (j.startFirst j.startOrder).pump else j

/-- The granules of a shadow sub-row that differ from the encoding before; all of them where a full one is owed (R114, R245). -/
def shadowDelta (w v : Nat) (old : Option (Nat × Bytes)) (new : Bytes) (full : Bool) : Nat × List Bytes :=
  let n := piecesOf 256 (shadowEncode w v new)
  let o := match old with | some p => piecesOf 256 (shadowEncode w p.1 p.2) | none => n.map (fun _ => List.replicate 256 0)
  let diff := (List.range n.length).filter (fun k => full || n.getD k [] ≠ o.getD k [])
  (diff.foldl (fun a k => a + 2 ^ k) 0, diff.map (fun k => n.getD k []))

/-- The backlog record of a written chunk (R89, R103, R114): FIRST where the chunk had never been written. -/
def Inst.addRecord (m : MapImage) (c : ChunkId) (step prev : Nat) (first : Bool) (old new : Bytes) (tformat : Nat)
    (recon isLoad : Bool) (i : Inst) : Inst :=
  let ts := i.chunkTargets c
  if ts.isEmpty then i
  else
    let d := piecesOf 256 (xorBytes old new)
    let diff := (List.range 16).filter (fun g => (d.getD g []).any (· ≠ 0))
    let w := match m.cls c.cls with | some r => formatWidth r.format | none => 4
    let sh := if m.protOf c = 1 then
        let full := isLoad || ts.any (fun t => i.cod.needFull.contains (c.ctx, t.1))
        some (shadowDelta w (step % 2 ^ 32) (if first then none else some (prev, old)) new full)
      else none
    let delta := diff.map (fun g => d.getD g [])
    let bytes := 256 * (1 + delta.length)
    let spill := if i.ctxRoom c.ctx 1 bytes then none else firstFit i.backlogPart i.backlogSpans bytes
    let r : Backlog := { id := i.cod.nextRec, chunk := c, srcPos := ((ts.head?).map (fun t => t.2.1)).getD 0, step := step, prev := prev,
                         digest := crc64 new, mask := diff.foldl (fun a g => a + 2 ^ g) 0, delta := delta, shadow := sh,
                         tformat := tformat, isLoad := isLoad, spillAt := spill, recon := recon,
                         owes := ts.map (fun t => { frag := t.1, home := t.2.2, first := first, sent := 0 }) }
    let j := ((match spill with | some a => (i.poolFail 1).freshLines a bytes | none => i).unmark (.delta r.id)).carryMarks c r.id
    { j with cod := { j.cod with backlog := j.cod.backlog ++ [r], nextRec := j.cod.nextRec + 1 } }

/-- A written chunk's part in a caravan that has already sent it (R153). -/
def Inst.noteMoved (c : FlightChunk) (v prev : Nat) (i : Inst) : Inst :=
  let mask := (List.range 16).foldl (fun a g => if slice (256 * g) 256 c.old = slice (256 * g) 256 c.new then a else a + 2 ^ g) 0
  { i with memb := { i.memb with moving := i.memb.moving.map (fun mv =>
      if mv.ctx = c.chunk.ctx ∧ mv.q = c.chunk.q ∧ mv.sent.contains c.chunk then { mv with owed := mv.owed ++ [(c.chunk, mask, v, prev)] } else mv) } }

/-- A chunk written back at its home, with its record and its part in a caravan; a staging line marked poisoned marks the chunk
(R27, R58, R89, R139, R153). -/
def Inst.writeHome (m : MapImage) (f : Flight) (c : FlightChunk) (i : Inst) : Inst :=
  match i.chunkSlot c.chunk with
  | none => i
  | some s =>
    let first := !i.isValid s
    let o := i.readRec s
    let v := f.step % 2 ^ 32
    let prev := if first then 0 else o.2.version
    let j := o.1.writeChunk s c.new { version := v, digest := crc64 c.new, attr := (o.2.attr &&& 8) ||| b2n (i.stagedPoison c.chunk.staged) }
    let k := j.addRecord m c.chunk f.step prev first c.old c.new f.tformat false false
    k.noteMoved c v prev

/-- A chunk written at a stand-in: its copy in the fault-service share (R125, R126, R135). -/
def Inst.writeStandin (m : MapImage) (f : Flight) (c : FlightChunk) (i : Inst) : Inst :=
  let old := i.readCopy m c.chunk
  let first := match i.flt.copies.find? (fun k => k.chunk = c.chunk) with | some k => k.fresh | none => false
  let prev := match old with | some r => r.info.version | none => 0
  let keep := match old with | some r => r.info.attr &&& 8 | none => 0
  let j := i.putCopy { chunk := c.chunk, info := { version := f.step % 2 ^ 32, digest := crc64 c.new, attr := 2 ||| keep ||| b2n (i.stagedPoison c.chunk.staged) },
                       fresh := false, bytes := c.new }
  (j.addRecord m c.chunk f.step prev first c.old c.new f.tformat true false).noteMoved c (f.step % 2 ^ 32) prev

/-- The record of one range of a flight, and its counts (R220, R229). -/
def Flight.record (m : MapImage) (seed : Nat) (f : Flight) (q : Nat) (recon : Bool) (poisoned : List Bool) : Bytes × EmitCounts :=
  let fmt := match m.cls m.master with | some r => r.format | none => 0
  let ls := ((f.newChunks.filter (fun c => decide (c.chunk.cls = m.master) && decide (c.chunk.q = q))).map (fun c => c.new)).flatten
  buildRecord { ctx := f.ctx, tformat := f.tformat, layer := f.layer, range := q, step := f.step, seed := seed,
                width := m.width, valid := m.validLanes q, lanes := (elemsOf fmt ls).map (vldConvert fmt), poisoned := poisoned,
                reemit := false, reconMark := recon }

/-- The lanes of a range that lie in a MASTER chunk marked POISON as its record is built (R227, R229). -/
def Inst.buildPoison (m : MapImage) (x q : Nat) (i : Inst) : List Bool :=
  let fmt := match m.cls m.master with | some r => r.format | none => 0
  (List.range (m.perRange m.master)).flatMap (fun k =>
    let c : ChunkId := { ctx := x, cls := m.master, q := q, k := k }
    let p := match i.chunkSlot c with
      | some s => (i.readRec s).2.poison
      | none => match i.copyOf c with | some d => d.info.poison | none => false
    List.replicate (4096 / fmtWidth fmt) p)

/-- The six counts of a record as a list, in the order of R233. -/
def EmitCounts.list (c : EmitCounts) : List Nat := [c.nan, c.sat, c.underflow, c.esc, c.escDenied, c.poison]

/-- The transport format a version of a range was obtained under; entries of versions no record reaches are dropped (R231). -/
def Inst.noteFormat (c : ChunkId) (v fmt : Nat) (i : Inst) : Inst :=
  let live := fun (u : Nat) => (i.recordsOf c).any (fun r => decide (r.step % 2 ^ 32 = u) || decide (r.prev = u))
  { i with emit := { i.emit with formats := i.emit.formats.filter (fun f => f.1 ≠ c || (decide (f.2.1 ≠ v) && live f.2.1)) ++ [(c, v, fmt)] } }

/-- The format of a version: as obtained, else the layer's present one (R231). -/
def Inst.formatOf (c : ChunkId) (v fmt : Nat) (i : Inst) : Nat :=
  match i.emit.formats.find? (fun f => decide (f.1 = c) && decide (f.2.1 = v)) with
  | some f => f.2.2
  | none => fmt

/-- The largest coding lag of any chunk of a context (R348). -/
def Inst.maxLag (x : Nat) (i : Inst) : Nat :=
  ((i.cod.backlog.filter (fun r => r.chunk.ctx = x)).map (fun r => i.lagOf r.chunk)).foldl max 0

/-- A range of a flight finished: its record waits in the emit share, and its step is marked (R229, R348). -/
def Inst.finishRange (m : MapImage) (f : Flight) (q : Nat) (i : Inst) : Inst :=
  let r := f.record m (leNat m.head.seed) q f.standin.isSome (i.buildPoison m f.ctx q)
  let b : Built := { ctx := f.ctx, q := q, step := f.step, layer := f.layer, bytes := r.1, counts := r.2.list, standin := f.standin }
  let mc : ChunkId := { ctx := f.ctx, cls := m.master, q := q, k := 0 }
  let j : Inst := { i with emit := { i.emit with waiting := i.emit.waiting ++ [b] } }
  let k := ((j.noteFormat mc (f.step % 2 ^ 32) f.tformat).count Cnt.rangesUpdated 1).modMark f.ctx f.step (fun s => { s with updated := s.updated + 1 })
  let t := k.tallyOf f.ctx
  (k.setTally { t with lagMax := max t.lagMax (k.maxLag f.ctx) }).modWork f.ctx q f.step (fun w => { w with stage := .written, retired := m.uncodedRange q })

/-- UPDATE_WRITEBACK (R27): the oldest update in flight writes all its classes back as one action; that of a tile whose array stages
wait or are parked does not end (R201). -/
def Inst.updateWriteback (i : Inst) : Inst :=
  match i.opt.flights with
  | [] => i
  | f :: t =>
    if f.tile.any (fun n => i.arrHolds (.tile f.ctx f.layer n f.step)) then i else
    let j : Inst := { i with opt := { i.opt with flights := t } }
    match j.image f.ctx with
    | none => j
    | some m =>
      let k := f.newChunks.foldl (fun i c => if f.standin.isSome then i.writeStandin m f c else i.writeHome m f c) j
      (f.ranges.foldl (fun i q => i.finishRange m f q) k).pump

/-- REFRESH_DONE (R196): the roots of the oldest unfinished refresh of a tile are written to its scratch block. -/
def Inst.refreshDone (x layer tile : Nat) (i : Inst) : Inst :=
  match i.opt.refreshes.find? (fun r => decide (r.ctx = x) && decide (r.layer = layer) && decide (r.tile = tile) && !r.done), i.image x with
  | some r, some m =>
    match i.arrHolds (.refresh x layer tile r.due), (m.layer layer).bind (fun l => i.paramBlock x l.paramBlock) with
    | true, _ | _, none => i
    | false, some b =>
      let w := pcWords b
      let rt := rootsOf w (m.head.passes == 9) r
      let j : Inst := Inst.refreshTimely r
        { i with opt := { i.opt with refreshes := i.opt.refreshes.map (fun s => if s = r then { s with done := true } else s) } }
      ((m.blockChunks x layer w.scratchCls tile).zip (piecesOf 4096 (bytesOfWords (rt.1.flatten ++ rt.2.flatten)))).foldl (fun i p =>
        match i.chunkSlot p.1 with
        | some s => i.writeChunk s p.2 { version := (r.due - w.rootLag) % 2 ^ 32, digest := crc64 p.2, attr := 0 }
        | none => i) j
  | _, _ => i

/-- REEMIT_REQUEST, and a REEMIT_FORWARD handled as one (R156, R230): queued, at most 64; a sleeping instance begins to wake. -/
def Inst.reemitRequest (r : ReemitReq) (i : Inst) : Inst :=
  if 64 ≤ i.emit.reemit.length then i
  else
    let j : Inst := { i with emit := { i.emit with reemit := i.emit.reemit ++ [r] } }
    let k := if 64 ≤ j.emit.reemit.length then j.event 0x1B01 none [] else j
    if k.pw.state = .doze ∨ k.pw.state = .nap then k.wakeUp else k

/-- UPDATE_START. -/
def execUpdateStart (i : InstId) (upsets : List Upset) (s : State) : Host.Outcome State Fault Refusal :=
  runInst i (Inst.updateStart upsets) s

/-- UPDATE_WRITEBACK. -/
def execUpdateWriteback (i : InstId) (s : State) : Host.Outcome State Fault Refusal := runInst i Inst.updateWriteback s

/-- REFRESH_DONE. -/
def execRefreshDone (i : InstId) (ctx layer tile : Nat) (s : State) : Host.Outcome State Fault Refusal :=
  runInst i (Inst.refreshDone ctx layer tile) s

end Sys2Proof.Machine
end

