-- ==== Sys2Proof/Machine/Emit.lean ====
section
/-! DEFINITION. Sending records on EMIT_OUT, back-pressure, re-emission (R20, R28, R29, R108, R156, R227 to R233). -/

namespace Sys2Proof.Machine

/-- Whether the scalars of a layer and step have been acknowledged, where its program declares them (R108). -/
def Inst.scalarsAcked (src : Home) (x layer step : Nat) (i : Inst) : Bool :=
  match i.scalarsFor src x layer step with
  | some s => s.sentPut && s.acks.isEmpty
  | none => true

/-- Whether a range's step has passed its release point and its scalars' acknowledgement (R20, R108). -/
def Inst.released (x layer q step : Nat) (i : Inst) : Bool :=
  (match i.workOf x q step with
   | some w => w.putsDue.isEmpty
   | none => true) && i.scalarsAcked (i.workHome x q) x layer step

/-- Whether a lower range of the layer that this instance homes may still get its gradient of the step: it has not arrived, and
neither has the END_OF_STEP (R28; log entry 132). -/
def Inst.lowerDue (b : Built) (i : Inst) : Bool :=
  b.standin.isNone && !(i.ctx b.ctx).run.closed.contains b.step && !(i.ctx b.ctx).run.endSteps.any (fun e => e.1 = b.step) &&
    (match (i.image b.ctx).bind (fun m => m.layer b.layer) with
     | some l => ((i.servedRanges b.ctx l).filter (fun q => decide (q < b.q) && i.serves b.ctx q == some none)).any (fun q =>
         !(i.partOf b.ctx b.layer b.step).arrived.any (fun a => a.1 = q))
     | none => false)

/-- Whether a built record may be sent: released, no lower range of its layer and step still to be emitted or to arrive, no
earlier step of its range waiting; a SATURATED context serves no reconstructed data (R28, R120, R229). -/
def Inst.sendable (b : Built) (i : Inst) : Bool :=
  i.released b.ctx b.layer b.q b.step && !i.lowerDue b && !(b.standin.isSome && (i.ctx b.ctx).memb.saturated) &&
    i.opt.work.all (fun w => !(decide (w.ctx = b.ctx) && decide (w.layer = b.layer) && decide (w.step = b.step) &&
      decide (w.q < b.q) && !w.emitted && w.stage != .skipped)) &&
    i.emit.waiting.all (fun o => !(decide (o.ctx = b.ctx) && decide (o.q = b.q) && decide (o.step < b.step)))

/-- The counts of a layer and step in its record (R233). -/
def Inst.emitTally (b : Built) (i : Inst) : Inst :=
  let same := fun (t : EmitTally) => decide (t.ctx = b.ctx) && decide (t.layer = b.layer) && decide (t.step = b.step)
  let t := (i.emit.tally.find? same).getD { ctx := b.ctx, layer := b.layer, step := b.step, counts := List.replicate 7 0, crcs := [] }
  let t2 : EmitTally := { t with counts := List.zipWith (· + ·) t.counts (1 :: b.counts),
                                 crcs := insertBy Prod.fst (b.q, BitVec.ofNat 64 (field 40 8 b.bytes)) t.crcs }
  { i with emit := { i.emit with tally := i.emit.tally.filter (fun u => !same u) ++ [t2] } }

/-- The counters of R233, in order. -/
def emitCounters : List Nat :=
  [Cnt.emitRanges, Cnt.emitNan, Cnt.emitSat, Cnt.emitUnderflow, Cnt.emitEsc, Cnt.emitEscDenied, Cnt.emitPoisonBlocks]

/-- A record put on EMIT_OUT whole: its header is kept for LAST (R386). -/
def Inst.putRecord (r : Bytes) (i : Inst) : Inst :=
  ({ i with emit := { i.emit with last := r.take 64 } }).emitOut (.emit r)

/-- EMIT_BACKPRESSURE (R29). -/
def Inst.emitBackpressure (withheld : Bool) (i : Inst) : Inst := { i with emit := { i.emit with stopped := withheld } }

/-- What a range of a re-emit request is answered with. -/
inductive Reemit where
  | waits (i : Inst)
  | answer (i : Inst) (r : Bytes)
  | forward (h : Home)
  deriving DecidableEq, Repr

/-- The poison flags of a range's lanes: those of its poisoned chunks (R227). -/
def lanePoison (fmt : Nat) (l : List ChunkRead) : List Bool :=
  l.flatMap (fun c => List.replicate (4096 / fmtWidth fmt) c.info.poison)

/-- A header-only answer (R231). -/
def Inst.miss (r : ReemitReq) (q status : Nat) (i : Inst) : Reemit :=
  let tf := match (i.image r.ctx).bind (fun m => m.layer r.layer) with | some l => l.tformat | none => 0
  .answer (i.count Cnt.emitReemitMiss 1) (headerOnly r.ctx tf r.layer q r.step status)

/-- A record built again, from the present bytes with newer deltas taken off (R231, R232). -/
def Inst.rebuild (m : MapImage) (l : LayerRec) (r : ReemitReq) (q : Nat) (reads : List ChunkRead) (undo : List (List Backlog))
    (i : Inst) : Reemit :=
  let fmt := match m.cls m.master with | some c => c.format | none => 0
  let bytes := (reads.zip undo).map (fun p => p.2.foldl (fun b u =>
    xorBytes b (((List.range 16).map u.granule).flatten)) p.1.bytes)
  let mc : ChunkId := { ctx := r.ctx, cls := m.master, q := q, k := 0 }
  let inp : EmitIn := { ctx := r.ctx, tformat := i.formatOf mc (r.step % 2 ^ 32) l.tformat, layer := l.id, range := q,
                        step := r.step, seed := leNat m.head.seed, width := m.width, valid := m.validLanes q,
                        lanes := (elemsOf fmt bytes.flatten).map (vldConvert fmt), poisoned := lanePoison fmt reads,
                        reemit := true, reconMark := reads.any (fun c => c.info.recon) }
  .answer (i.count Cnt.emitReemit 1) (buildRecord inp).1

/-- The step conditions of R231, for a range this instance serves. -/
def Inst.answerServed (m : MapImage) (l : LayerRec) (r : ReemitReq) (q : Nat) (standin : Option Home) (i : Inst) : Reemit :=
  let cs := (List.range (m.perRange m.master)).map (fun k => ({ ctx := r.ctx, cls := m.master, q := q, k := k } : ChunkId))
  let d := i.readChunks m standin.isSome cs
  match d.2 with
  | none => .waits (match standin with | some h => d.1.startStandin r.ctx q h | none => d.1)
  | some reads =>
    let low := ((reads.head?).map (fun c => c.info.version)).getD 0
    let written := standin.isSome || reads.any (fun c => match i.chunkSlot c.chunk with | some s => d.1.isValid s | none => false)
    let v := if written then extendStep (i.ctx r.ctx).run.step low else m.head.baseStep
    if r.step = v then
      if d.1.released r.ctx l.id q v then d.1.rebuild m l r q reads (reads.map (fun _ => [])) else .waits d.1
    else if r.step < v ∧ v < r.step + 2 ^ 31 then
      let us := reads.map (fun c => undoTo c.info.version (r.step % 2 ^ 32) (d.1.recordsOf c.chunk))
      if us.all (fun u => u.isSome) then d.1.rebuild m l r q reads (us.map (fun u => u.getD [])) else d.1.miss r q 1
    else if r.step < v then d.1.miss r q 1
    else d.1.miss r q 2

/-- One range of a request, its conditions in the order of R231; a SATURATED context serves no reconstructed data (R120). -/
def Inst.answerRange (r : ReemitReq) (q : Nat) (i : Inst) : Reemit :=
  match i.image r.ctx with
  | none => i.miss r q 4
  | some m =>
    match i.memb.departed.find? (fun d => decide (d.1 = r.ctx) && decide (d.2.1 = q)), i.serves r.ctx q, m.layerOf q with
    | some d, _, _ => .forward d.2.2
    | none, some sv, some l => if sv.isSome && (i.ctx r.ctx).memb.saturated then .waits i else i.answerServed m l r q sv
    | _, _, _ => i.miss r q 3

/-- The ranges of the request at the head, in ascending order, as far as one must wait (R230, R231). -/
def Inst.reemitRanges (r : ReemitReq) : Nat → Nat → Inst → Inst
  | _, 0, i => { i with emit := { i.emit with reemit := i.emit.reemit.drop 1 } }
  | q, n + 1, i =>
    match i.answerRange r q with
    | .answer j b => Inst.reemitRanges r (q + 1) n (j.putRecord b)
    | .forward h =>
      Inst.reemitRanges r (q + 1) n
        (i.send h r.ctx 3 .forward (.reemitForward { r with firstRange := q, rangeCount := 1 }) 0)
    | .waits j =>
      { j with emit := { j.emit with reemit := { r with firstRange := q, rangeCount := n + 1 } :: j.emit.reemit.drop 1 } }

/-- REEMIT_SERVE (R231). -/
def Inst.reemitServe (i : Inst) : Inst :=
  if !i.running || i.emit.stopped then i
  else match i.emit.reemit with
    | [] => i
    | r :: _ => (i.reemitRanges r r.firstRange r.rangeCount).pump

/-- The first fresh record that may be sent is sent (R229). -/
def Inst.freshSend (i : Inst) : Inst :=
  match i.emit.waiting.find? (fun b => i.sendable b) with
    | none => i
    | some b =>
      let j : Inst := { i with emit := { i.emit with waiting := i.emit.waiting.filter (fun o => o ≠ b) } }
      let k := ((j.putRecord b.bytes).emitTally b).modWork b.ctx b.q b.step (fun w => { w with emitted := true })
      let c := (emitCounters.zip (1 :: b.counts)).foldl (fun i c => i.count c.1 c.2) k
      let n := match b.standin with | some l => c.firstService b.ctx l | none => c
      { n with opt := { n.opt with work := n.opt.work.filter (fun w => !(w.emitted && w.retired)) } }

/-- EMIT_RECORD_SEND (R229, R232): re-emit records that can be built go first, then the first fresh record that may be sent. -/
def Inst.emitSend (i : Inst) : Inst := if !i.running || i.emit.stopped then i else i.reemitServe.freshSend

/-- EMIT_RECORD_SEND. -/
def execEmitRecordSend (i : InstId) (s : State) : Host.Outcome State Fault Refusal := runInst i Inst.emitSend s

/-- EMIT_BACKPRESSURE. -/
def execEmitBackpressure (i : InstId) (withheld : Bool) (s : State) : Host.Outcome State Fault Refusal :=
  runInst i (Inst.emitBackpressure withheld) s

/-- REEMIT_REQUEST. -/
def execReemitRequest (i : InstId) (r : ReemitReq) (s : State) : Host.Outcome State Fault Refusal :=
  runInst i (Inst.reemitRequest r) s

/-- REEMIT_SERVE. -/
def execReemitServe (i : InstId) (s : State) : Host.Outcome State Fault Refusal := runInst i Inst.reemitServe s

end Sys2Proof.Machine
end

