-- ==== Sys2Proof/Machine/Holder.lean ====
section
/-! DEFINITION. What a holder or a destination does with an operation that has passed the receiver's checks: DELTA_XOR,
SHADOW_PUT, COMMIT, REBUILD_PUT, CUTOVER, FRAG_READ and the forwards (R92 to R101, R140, R149 to R151, R155, R156, R245, R259, R260).
Each answers the instance and the response; none while the answer must wait for a repair or a decode. -/

namespace Sys2Proof.Machine

/-- The log arguments of an operation on a row (R383). -/
def rowArgs (op : Nat) (h : FabHdr) (stripe row : Nat) : List (Nat × Nat × Nat) :=
  [(20, 1, op), (21, 2, h.srcNode), (23, 1, h.srcHome), (24, 4, stripe), (28, 4, row)]

/-- A malformed operation: logged, nothing applied (R99, R264). -/
def Inst.malformed (op : Nat) (h : FabHdr) (i : Inst) : Inst × RespBody :=
  (i.event 0x1704 (some h.ctx) [(20, 1, op), (21, 2, h.srcNode)], ansMalformed)

/-- Number of bits set in a granule mask. -/
def popCount (mask : Nat) : Nat := (bitsSet 16 mask).length

/-- Whether the named parity has the named member among its contributors, and the index lies in its role's range (R99). -/
def StripeRec.fieldsOk (s : StripeRec) (role index member : Nat) : Bool :=
  match role with
  | 0 => decide (member < s.geom.k) && index == 0
  | 2 => decide (1 ≤ index) && decide (index ≤ s.geom.r) && decide (member < s.geom.k)
  | _ => decide (index < s.geom.colonies) && (s.geom.members index).contains member

/-- The field rules of R99 that need the stripe, where the committed map carries it. -/
def Inst.placeOk (x stripe role index member : Nat) (i : Inst) : Bool :=
  match (i.image x).bind (fun m => m.stripe stripe) with
  | some s => s.fieldsOk role index member
  | none => true

/-- An operation that names no extent of this instance (R99). -/
def Inst.noExtent (op : Nat) (h : FabHdr) (stripe row : Nat) (i : Inst) : Inst × RespBody :=
  ((i.count Cnt.noExtent 1).event 0x1403 (some h.ctx) (rowArgs op h stripe row), ansOk 2)

/-- RETRY with reason VECTOR_GAP, counted and logged (R99). -/
def Inst.vectorGap (h : FabHdr) (stripe row : Nat) (i : Inst) : Inst × RespBody :=
  ((i.count Cnt.vectorGap 1).event 0x1402 (some h.ctx)
    [(20, 2, h.srcNode), (22, 1, h.srcHome), (24, 4, stripe), (28, 4, row)], ansRetry 2)

/-- A duplicate acknowledged (R99). -/
def Inst.deltaDup (i : Inst) : Inst × RespBody := (i.count Cnt.deltaDup 1, ansOk 1)

/-- The committed bytes of a shadow sub-row: as it stood before its open put (R100); none where a line cannot be read. -/
def Inst.subRow (x : Nat) (f : FragId) (h : HeldRow) (i : Inst) : Inst × Option Bytes :=
  let d := i.rowGranules h (List.range h.count)
  if d.2.any (fun g => g.isNone) then (d.1, none)
  else
    let os := d.1.opensAt x f
    (d.1, some ((d.2.mapIdx (fun g b => os.foldl (fun b o => xorBytes b (o.granule g)) (b.getD []))).flatten))

/-- What a row records of a member (R96, R114): a vector entry, or for a sub-row the VERSION it holds. A sub-row of zeros is at
VERSION 0 for an operation that follows a commit and has none for one that carries FIRST (log entry 137). None where the sub-row
cannot be read. -/
def Inst.rowEntry (x : Nat) (f : FragId) (h : HeldRow) (s : StripeRec) (member : Nat) (first : Bool) (i : Inst) : Inst × Option VecEntry :=
  if f.role = 3 then
    let r := i.subRow x f h
    (r.1, r.2.map (fun b => { version := field (subRowVersion h.width) 4 b, digest := 0,
                              committed := b.any (· ≠ 0) || !first, reconstructed := false }))
  else
    match (contributors s.geom f.role f.index).findIdx? (· = member) with
    | some n => let r := i.readVecAt h.place n; (r.1, some r.2)
    | none => (i, none)

/-- PREV_VERSION judged (R98). -/
def prevMatches (e : VecEntry) (prev : Nat) (first : Bool) : Bool :=
  if e.committed then prev == e.version && !first else first

/-- An open step recorded. -/
def Inst.openStep (o : OpenStep) (i : Inst) : Inst := { i with cod := { i.cod with opens := i.cod.opens ++ [o] } }
def Inst.closeStep (o : OpenStep) (i : Inst) : Inst := { i with cod := { i.cod with opens := i.cod.opens.filter (fun p => p ≠ o) } }

/-- The open step an operation makes. -/
def openOfBody (h : FabHdr) (f : FragId) (b : DeltaBody) (ver : Nat) (kept : List Bytes) (poisoned : Bool) : OpenStep :=
  { ctx := h.ctx, frag := f, member := b.srcPos, step := b.step, mask := b.mask, kept := kept, poisoned := poisoned,
    heals := false, source := hdrHome h, version := ver }

/-- Granules of a sub-row overwritten, answering old ⊕ new of each (R58, R99, SHADOW_PUT). -/
def Inst.overwrite (h : HeldRow) (gs : List (Nat × Bytes)) (i : Inst) : Inst × List Bytes :=
  gs.foldl (fun (a : Inst × List Bytes) g =>
    let d := a.1.rowGranules h [g.1]
    match d.2 with
    | [some old] =>
      ((d.1.writeGranule h.slot (h.first + g.1) g.2).digestXor h.slot (h.first + g.1) (xorBytes old g.2), a.2 ++ [xorBytes old g.2])
    | _ => ((d.1.writeGranule h.slot (h.first + g.1) g.2).digestStored h.slot, a.2 ++ [g.2])) (i, [])

/-- The granules of an operation XORed into a parity row. A line that cannot be read starts the row's repair, and nothing is
applied; a DAMAGED row goes on without that line (R240, R244). -/
def Inst.xorInto (x : Nat) (f : FragId) (r : HeldRow) (gs : List (Nat × Bytes)) (i : Inst) : Inst × Bool :=
  if i.cod.damaged.contains (x, f) then ((i.xorGranules r gs).1, true)
  else
    let d := i.rowGranules r (gs.map Prod.fst)
    if d.2.any (fun g => g.isNone) then
      (d.1.startRowRepair x f (d.1.mem.badLines r.slot (gs.map (fun g => g.1 + r.first))) false, false)
    else ((d.1.xorGranules r gs).1, true)

/-- The bytes of a DELTA_XOR or SHADOW_PUT applied, and the step opened (R99); RETRY while a repair must come first (R240). -/
def Inst.applyDelta (h : FabHdr) (f : FragId) (r : HeldRow) (b : DeltaBody) (payload : List Bytes) (ver : Nat) (i : Inst) : Inst × RespBody :=
  let gs := (bitsSet 16 b.mask).zip payload
  if f.role = 3 then
    let o := i.overwrite r gs
    (o.1.openStep (openOfBody h f b ver o.2 false), ansOk 0)
  else
    let a := i.xorInto h.ctx f r gs
    if a.2 then (a.1.openStep (openOfBody h f b ver payload false), ansOk 0) else (a.1, ansRetry 10)

/-- Whether the open table or the coding share has no room for a step's granules: counted, and answered RETRY (R99). -/
def Inst.openRefused (x bytes : Nat) (i : Inst) : Option (Inst × RespBody) :=
  if 8192 ≤ i.cod.opens.length then some (i.count Cnt.openFull 1, ansRetry 1)
  else if !i.ctxRoom x 1 bytes then some ((i.poolFail 1).count Cnt.openFull 1, ansRetry 1)
  else none

/-- The procedure of R99 once the row and the member's entry are known. -/
def Inst.deltaOn (h : FabHdr) (f : FragId) (r : HeldRow) (e : VecEntry) (b : DeltaBody) (payload : List Bytes) (i : Inst) : Inst × RespBody :=
  let op := if f.role = 3 then 1 else 0
  if e.committed && !newer b.step e.version then i.deltaDup
  else match i.openOf h.ctx f b.srcPos with
    | some o => if o.step = b.step then i.deltaDup else (i.rollbackOpen o).vectorGap h b.stripe b.row
    | none =>
      if !prevMatches e b.prev b.first then i.vectorGap h b.stripe b.row
      else
        let j := (i.count Cnt.poisonDelta 1).event 0x1404 (some h.ctx) (rowArgs op h b.stripe b.row)
        if h.poison ≠ 0 ∧ f.role = 3 then (j.damageRow h.ctx f, ansRetry 4)
        else match i.openRefused h.ctx (if h.poison = 0 then 256 * payload.length else 0) with
          | some r => r
          | none =>
            if h.poison ≠ 0 then (j.openStep (openOfBody h f b h.mapVersion [] true), ansOk 5)
            else i.applyDelta h f r b payload h.mapVersion

/-- A SHADOW_PUT to a DAMAGED sub-row: refused until it is full, then written whole (R245). -/
def Inst.deltaDamaged (h : FabHdr) (f : FragId) (r : HeldRow) (b : DeltaBody) (payload : List Bytes) (i : Inst) : Inst × RespBody :=
  if b.count ≠ r.count || h.poison ≠ 0 then (i, ansRetry 4)
  else if i.cod.opens.any (fun o => decide (o.ctx = h.ctx) && decide (o.frag = f) && o.heals && decide (o.step = b.step)) then i.deltaDup
  else match i.openRefused h.ctx (256 * payload.length) with
    | some r => r
    | none =>
      let o := i.overwrite r ((bitsSet 16 b.mask).zip payload)
      let j : Inst := { o.1 with cod := { o.1.cod with opens := o.1.cod.opens.filter (fun p => !(decide (p.ctx = h.ctx) && decide (p.frag = f))) } }
      (j.openStep { openOfBody h f b h.mapVersion (payload.map (fun p => p.map (fun _ => 0))) false with heals := true }, ansOk 0)

/-- The row is held and takes the member's operations. -/
def Inst.deltaRow (h : FabHdr) (f : FragId) (r : HeldRow) (s : StripeRec) (b : DeltaBody) (payload : List Bytes) (i : Inst) : Inst × RespBody :=
  if i.rowRebuilding h.ctx f then (i, ansRetry 10)
  else if f.role = 3 && i.cod.damaged.contains (h.ctx, f) then i.deltaDamaged h f r b payload
  else
    let e := i.rowEntry h.ctx f r s b.srcPos b.first
    match e.2 with
    | some v => e.1.deltaOn h f r v b payload
    | none => (e.1.damageRow h.ctx f, ansRetry 4)

/-- DELTA_XOR and SHADOW_PUT at a holder (R99, R151). -/
def Inst.holderDelta (isShadow : Bool) (h : FabHdr) (b : DeltaBody) (payload : List Bytes) (i : Inst) : Inst × RespBody :=
  let op := if isShadow then 1 else 0
  let f : FragId := { stripe := b.stripe, row := b.row, role := b.dstRole, index := b.dstIndex }
  let roleOk := if isShadow then b.dstRole == 3 else b.dstRole == 1 || b.dstRole == 2
  if b.count ≠ popCount b.mask || payload.length ≠ b.count || !roleOk || !i.placeOk h.ctx b.stripe b.dstRole b.dstIndex b.srcPos then
    i.malformed op h
  else
    match i.heldRow h.ctx f, (i.image h.ctx).bind (fun m => m.stripe b.stripe) with
    | some r, some s =>
      match i.buildingAt h.ctx f with
      | some bl => if bl.bits.contains b.srcPos then i.deltaRow h f r s b payload else (i, ansRetry 5)
      | none => i.deltaRow h f r s b payload
    | _, _ => i.noExtent op h b.stripe b.row

/-- What the COMMIT of a step leaves behind: a poisoned row rebuilt whole, a sub-row that a full put has written
sound again (R99, R245). -/
def Inst.afterCommit (x : Nat) (f : FragId) (o : Option OpenStep) (i : Inst) : Inst :=
  match o with
  | none => i
  | some p =>
    if p.poisoned then
      ({ i with cod := { i.cod with repoison := if i.cod.repoison.contains (x, f) then i.cod.repoison else i.cod.repoison ++ [(x, f)] } }).startRowRepair
        x f (List.range 64) false
    else if f.role = 3 ∧ p.heals then { i with cod := { i.cod with damaged := i.cod.damaged.filter (fun d => d ≠ (x, f)) } }
    else i

/-- The procedure of R99 for a COMMIT, once the row and the member's entry are known. -/
def Inst.commitOn (h : FabHdr) (f : FragId) (r : HeldRow) (s : StripeRec) (e : VecEntry) (damaged : Bool) (b : CommitBody) (i : Inst) : Inst × RespBody :=
  let o := i.openOf h.ctx f b.srcPos
  let back := match o with | some p => i.rollbackOpen p | none => i
  if !damaged && e.committed && !newer b.step e.version then (i.count Cnt.commitDup 1, ansOk 1)
  else if !damaged && !prevMatches e b.prev b.first then back.vectorGap h b.stripe b.row
  else if (match o with | some p => p.mask | none => 0) ≠ b.mask || (match o with | some p => decide (p.step ≠ b.step) | none => damaged) then
    (back.count Cnt.maskMismatch 1, ansRetry 3)
  else
    let j := match o with | some p => i.closeStep p | none => i
    let k := match f.role, (contributors s.geom f.role f.index).findIdx? (· = b.srcPos) with
      | 3, _ => j
      | _, some n => j.writeVecAt r.place n { version := b.step, digest := b.digest, committed := true, reconstructed := b.reconstructed }
      | _, none => j
    (k.afterCommit h.ctx f o, ansOk 0)

/-- COMMIT at a holder (R99, R151). -/
def Inst.holderCommit (h : FabHdr) (b : CommitBody) (i : Inst) : Inst × RespBody :=
  let f : FragId := { stripe := b.stripe, row := b.row, role := b.dstRole, index := b.dstIndex }
  if !(decide (1 ≤ b.dstRole) && decide (b.dstRole ≤ 3)) || !i.placeOk h.ctx b.stripe b.dstRole b.dstIndex b.srcPos then i.malformed 2 h
  else
    match i.heldRow h.ctx f, (i.image h.ctx).bind (fun m => m.stripe b.stripe) with
    | some r, some s =>
      if (match i.buildingAt h.ctx f with | some bl => !bl.bits.contains b.srcPos | none => false) then (i, ansRetry 5)
      else if i.rowRebuilding h.ctx f then (i, ansRetry 10)
      else if f.role = 3 && i.cod.damaged.contains (h.ctx, f) then
        i.commitOn h f r s { version := 0, digest := 0, committed := false, reconstructed := false } true b
      else
        let e := i.rowEntry h.ctx f r s b.srcPos b.first
        match e.2 with
        | some v => e.1.commitOn h f r s v false b
        | none => (e.1.damageRow h.ctx f, ansRetry 4)
    | _, _ => i.noExtent 2 h b.stripe b.row

/-- Whether every row of a context that was BUILDING is built; a built row leaves the table (R151). -/
def Inst.setBuilt (x : Nat) (f : FragId) (member : Nat) (all : List Nat) (i : Inst) : Inst :=
  let upd := i.cod.building.map (fun b => if b.ctx = x ∧ b.frag = f then { b with bits := insertNat member b.bits } else b)
  { i with cod := { i.cod with building := upd.filter (fun b => !(decide (b.ctx = x) && decide (b.frag = f) && all.all b.bits.contains)) } }

/-- A REBUILD_PUT to a parity or shadow row (R151); a line that cannot be read is repaired first (R240). -/
def Inst.rebuildParity (h : FabHdr) (f : FragId) (r : HeldRow) (s : StripeRec) (b : RebuildBody) (payload : List Bytes) (i : Inst) : Inst × RespBody :=
  let bl := i.buildingAt h.ctx f
  let e := i.rowEntry h.ctx f r s b.srcPos true
  let clear := match bl with
    | some t => !t.bits.contains b.srcPos
    | none => (match e.2 with | some v => !v.committed | none => false) && (e.1.openOf h.ctx f b.srcPos).isNone
  if !clear then (e.1.count Cnt.rebuildDup 1, ansOk 1)
  else if h.poison ≠ 0 then (e.1.damageRow h.ctx f, ansOk 5)
  else
    let gs := (bitsSet 16 b.mask).zip payload
    let done := fun (i : Inst) => i.setBuilt h.ctx f b.srcPos (if f.role = 3 then [b.srcPos] else contributors s.geom f.role f.index)
    if f.role = 3 then
      let full := (List.range r.count).map (fun g => (g, ((gs.find? (fun p => p.1 = g)).map Prod.snd).getD (List.replicate 256 0)))
      (done (if b.zero then e.1 else (e.1.overwrite r full).1), ansOk 0)
    else
      let a := e.1.xorInto h.ctx f r gs
      if !a.2 then (a.1, ansRetry 10)
      else match (contributors s.geom f.role f.index).findIdx? (· = b.srcPos) with
        | some n => (done (a.1.writeVecAt r.place n { version := b.version, digest := b.digest, committed := !b.zero, reconstructed := b.reconstructed }), ansOk 0)
        | none => (done a.1, ansOk 0)

/-- A REBUILD_PUT to a data destination (R150); one for a range that is not incoming here is a duplicate (log entry 152). -/
def Inst.rebuildData (h : FabHdr) (c : ChunkId) (slot : Nat) (b : RebuildBody) (payload : List Bytes) (i : Inst) : Inst × RespBody :=
  let attr := b2n (decide (h.poison ≠ 0)) + 2 * b2n b.reconstructed + 8 * b2n b.shadowApprox
  let new : ChunkRec := { version := b.version, digest := b.digest, attr := attr }
  let gs := (bitsSet 16 b.mask).zip payload
  if !i.isIncoming c.ctx c.q then (i.count Cnt.rebuildDup 1, ansOk 1)
  else if b.zero then (i, ansOk 0)
  else if b.probe then
    let r := i.readRec slot
    (r.1, if r.2.version = b.version ∧ r.2.digest = b.digest ∧ !r.2.poison then ansOk 3 else ansOk 4)
  else if b.full then
    let bytes := ((List.range 16).map (fun g => ((gs.find? (fun p => p.1 = g)).map Prod.snd).getD (List.replicate 256 0))).flatten
    (i.writeChunk slot bytes new, ansOk 0)
  else
    let r := i.readRec slot
    if r.2.version ≠ b.prev then (r.1, ansRetry 4)
    else ((gs.foldl (fun i g => i.writeGranule slot g.1 g.2) r.1).writeRec slot { new with attr := attr ||| (r.2.attr &&& 1) }, ansOk 0)

/-- REBUILD_PUT (R149 to R151). -/
def Inst.holderRebuild (h : FabHdr) (b : RebuildBody) (payload : List Bytes) (i : Inst) : Inst × RespBody :=
  let f : FragId := { stripe := b.stripe, row := b.row, role := b.dstRole, index := b.dstIndex }
  if b.count ≠ popCount b.mask || payload.length ≠ b.count || 4 ≤ b.dstRole || !i.placeOk h.ctx b.stripe b.dstRole b.dstIndex b.srcPos then
    i.malformed 7 h
  else if b.dstRole = 0 then
    let at_ := if b.stripe = 0xFFFFFFFF then (i.image h.ctx).bind (fun m => m.noneAt h.ctx i.self b.srcPos b.row)
               else i.chunkOfFrag h.ctx b.stripe b.row b.srcPos
    match at_ with
    | some c => match i.chunkSlot c with
      | some s => i.rebuildData h c s b payload
      | none => i.noExtent 7 h b.stripe b.row
    | none => i.noExtent 7 h b.stripe b.row
  else
    match i.heldRow h.ctx f, (i.image h.ctx).bind (fun m => m.stripe b.stripe) with
    | some r, some s => if i.rowRebuilding h.ctx f then (i, ansRetry 10) else i.rebuildParity h f r s b payload
    | _, _ => i.noExtent 7 h b.stripe b.row

/-- The RANGE_DIGEST over chunk records (R154), and their versions. -/
def rangeDigest (rs : List ChunkRec) : BitVec 64 := crc64 (rs.flatMap (fun r => natLe 8 r.digest.toNat))

/-- The records of a range's chunks at its home. -/
def Inst.rangeRecs (m : MapImage) (x q : Nat) (i : Inst) : Inst × List ChunkRec :=
  (m.chunksOf x q).foldl (fun (a : Inst × List ChunkRec) c =>
    match a.1.chunkSlot c with
    | some s => let r := a.1.readRec s; (r.1, a.2 ++ [r.2])
    | none => a) (i, [])

/-- A gradient that waited for the cutover takes up its ledger copy and its part in the norm (R153, R155). -/
def Inst.adoptWork (m : MapImage) (w : Work) (i : Inst) : Inst :=
  match m.layerOf w.q with
  | none => i
  | some l =>
    let hs := i.putHomes w.ctx w.q
    let j := i.modWork w.ctx w.q w.step (fun v => { v with putsDue := hs })
    let p := j.partOf w.ctx l.id w.step
    let got := p.arrived.filter (fun y => y.1 ≠ w.q) ++ [(w.q, some (w.format, w.payload))]
    let k := (j.setPart { p with arrived := got, lastAt := if w.flags.testBit 0 then some w.q else p.lastAt }).tryPartial w.ctx l w.step false
    (k.sendPuts { w with putsDue := hs }).resendScalars w.ctx l w.step (k.workHome w.ctx w.q)

/-- A range taken over: ADOPT goes out, pending gradients above the step proceed and the others are duplicates (R155). -/
def Inst.takeOver (m : MapImage) (x q step : Nat) (i : Inst) : Inst :=
  let l := m.layerOf q
  let j : Inst := { i with memb := { i.memb with incoming := i.memb.incoming.filter (fun p => p ≠ (x, q)) } }
  let k := (j.emitOut (.adopt x q 1 ((l.map (fun l => l.id)).getD 0))).noteFormat { ctx := x, cls := m.master, q := q, k := 0 }
    (step % 2 ^ 32) ((l.map (fun l => l.tformat)).getD 0)
  let ws := sortBy (fun w => w.step) (k.opt.work.filter (fun w => decide (w.ctx = x) && decide (w.q = q)))
  ws.foldl (fun i w =>
    if w.step ≤ step then
      ({ i with opt := { i.opt with work := i.opt.work.filter (fun v => !(decide (v.ctx = x) && decide (v.q = q) && decide (v.step = w.step))) } }).gradDiscard
        1 0x1909 x q w.step
    else i.adoptWork m w) k

/-- CUTOVER at the destination (R155). -/
def Inst.holderCutover (x : Nat) (b : CutoverBody) (i : Inst) : Inst × RespBody :=
  match i.image x with
  | none => (i, ansRetry 11)
  | some m =>
    if !i.isIncoming x b.range then (i, ansOk 1)
    else
      let r := i.rangeRecs m x b.range
      if r.2.all (fun c => decide (c.version = b.step % 2 ^ 32)) && rangeDigest r.2 == b.rangeDigest then
        ((r.1.heardFrom x (some b.range) r.1.self).takeOver m x b.range b.step, ansOk 0)
      else (r.1, ansRetry 11)

/-- The gradient a GRAD_FORWARD carries, as GRAD_IN would have presented it, its poison with it (R140, R156, R257). -/
def forwardItem (x : Nat) (e : LedgerEntry) (poisoned : Bool) : GradItem :=
  { desc := { kind := 0, ctx := x, format := e.format, flags := 2 * b2n e.incomplete, layer := e.layer, range := e.range,
              step := e.step, payloadBytes := e.payloadBytes, normSq := 0 },
    beats := cdiv e.payloadBytes 128, payload := e.payload, poisoned := poisoned }

/-- GRAD_FORWARD (R156): an arrival on GRAD_IN, refused while ingress has no room (R18). -/
def Inst.holderForward (h : FabHdr) (e : LedgerEntry) (i : Inst) : Inst × RespBody :=
  if !i.ctxRoom h.ctx 0 e.payload.length then (i.poolFail 0, ansRetry 7)
  else (i.gradient (forwardItem h.ctx e (decide (h.poison ≠ 0))), ansOk 0)

/-- REEMIT_FORWARD (R156): queued as a local request, refused while the queue is full (R230). -/
def Inst.holderReemit (r : ReemitReq) (i : Inst) : Inst × RespBody :=
  if 64 ≤ i.emit.reemit.length then (i, ansRetry 7)
  else (i.reemitRequest r, ansOk 0)

/-- A served fragment as a RESPONSE carries it (R260). -/
def fragResp (a : FragAns) : RespBody :=
  { ansOk 0 with ext := .frag a.version a.digest a.attr a.mask a.granules a.vector }

/-- Whether a fragment is a chunk this instance stands in for and is still decoding (R134, R135). -/
def Inst.standinBusy (x : Nat) (f : FragId) (i : Inst) : Bool :=
  f.role == 0 && (match i.chunkOfFrag x f.stripe f.row f.index with
    | some c => (i.chunkSlot c).isNone && i.decoding x c.q
    | none => false)

/-- A FRAG_READ answered for a lost member's chunk is a first service (R131). -/
def Inst.fragServed (x : Nat) (f : FragId) (i : Inst) : Inst :=
  if f.role ≠ 0 then i
  else match i.chunkOfFrag x f.stripe f.row f.index, i.image x with
    | some c, some m => match i.servesChunk m c with | some (some l) => i.firstService x l | _ => i
    | _, _ => i

/-- FRAG_READ (R259, R260): as home or holder, or as the stand-in of the member. Answers the response and the poison flags of
its granules; none while it waits. -/
def Inst.holderFrag (x : Nat) (b : FragBody) (i : Inst) : Inst × Option (RespBody × Nat) :=
  let f : FragId := { stripe := b.stripe, row := b.row, role := b.role, index := b.index }
  let r := if i.standinBusy x f then (i, FragRes.wait) else i.serveLocal x f b.mode b.mask b.version
  match r.2 with
  | .served a => (r.1.fragServed x f, some (fragResp a, a.poison))
  | .wait => (r.1, none)
  | .repairChunk slot line =>
    match i.chunkOfFrag x b.stripe b.row b.index with
    | some c =>
      let j := r.1.chunkFailed c slot line false
      if j.repairing slot then (j, none) else (j, some (respOf St.versionUnavailable 0 0, 0))
    | none => (r.1, some (respOf St.notHeld 0 0, 0))
  | .repairRow g ls =>
    if g.role = 3 then (r.1.damageRow x g, some (respOf St.damaged 0 0, 0))
    else (r.1.startRowRepair x g ls false, none)
  | .status st =>
    if st = St.notHeld ∧ b.role = 0 then
      match i.chunkOfFrag x b.stripe b.row b.index with
      | some c => match (i.image x).bind (fun m => i.servesChunk m c) with
        | some (some l) => (r.1.startStandin x ((match i.image x with | some m => i.chunkRanges m c | none => []).headD c.q) l, none)
        | _ => (r.1, some (respOf st 0 0, 0))
      | none => (r.1, some (respOf st 0 0, 0))
    else (r.1, some (respOf st 0 0, 0))

end Sys2Proof.Machine
end

