-- ==== Sys2Proof/Machine/Coding.lean ====
section
/-! DEFINITION. The coding stage's sending side and retirement: per-holder queues, deltas and commits, what their answers do,
LEDGER_RETIRE (R30 to R32, R89 to R93, R99, R102, R103, R105, R110, R111, R114, R118, R126, R245, R415). -/

namespace Sys2Proof.Machine

/-- The data position of a chunk towards a holder: that of the stripe the holder belongs to (R91, R146). -/
def Inst.srcPosFor (r : Backlog) (f : FragId) (i : Inst) : Nat :=
  match (i.chunkFrags r.chunk).find? (fun g => decide (g.stripe = f.stripe) && decide (g.row = f.row)) with
  | some g => g.index
  | none => r.srcPos

/-- Whether a step of a chunk has passed its release point, as far as its deltas are concerned (R20, R108). -/
def Inst.recReleased (m : MapImage) (r : Backlog) (i : Inst) : Bool :=
  r.isLoad || (i.chunkRanges m r.chunk).all (fun q => i.released r.chunk.ctx (m.chunkLayer r.chunk) q r.step)

/-- Whether the pair waits: for a RETRY_AFTER, for a push that comes first, or for the rollback of a holder that is this instance
(R101, R152, R265). -/
def Inst.oweHeld (r : Backlog) (o : Owe) (i : Inst) : Bool :=
  i.fab.retry.any (fun p => match p.owner with | .coding n f _ => n == r.id && f == o.frag | _ => false) ||
    i.memb.pushes.any (fun p => decide (p.chunk = r.chunk) && decide (p.frag = o.frag)) ||
    isLost (i.ctx r.chunk.ctx).memb.lost o.home ||
    (decide (o.home = i.self) && (i.ctx r.chunk.ctx).memb.rollback)

/-- The pair a holder's queue serves next: the oldest record that owes it something sendable, no older record of the chunk
still unsent to it (R91). -/
def Inst.nextOwe (h : Home) (i : Inst) : Option (Backlog × Owe) :=
  i.cod.backlog.findSome? (fun r => r.owes.findSome? (fun o =>
    if decide (o.home = h) && o.sent == 0 && !i.oweHeld r o &&
        (match i.image r.chunk.ctx with | some m => i.recReleased m r | none => false) &&
        i.cod.backlog.all (fun p => !(decide (p.chunk = r.chunk) && decide (p.id < r.id) &&
          p.owes.any (fun q => decide (q.frag = o.frag) && decide (q.sent ≠ 2))))
    then some (r, o) else none))

/-- The holders with something to send, in the order of their oldest record. -/
def Inst.oweHomes (i : Inst) : List Home :=
  ((i.cod.backlog.flatMap (fun r => r.owes.map (fun o => o.home))).eraseDups).filter (fun h => (i.nextOwe h).isSome)

/-- The next holder round robin after the one served last (R91). -/
def roundRobin (last : Option Home) (hs : List Home) : Option Home :=
  match last with
  | none => hs.head?
  | some l =>
    let key := fun (h : Home) => h.node * 256 + h.idx
    let sorted := sortBy key hs
    match sorted.find? (fun h => key l < key h) with
    | some h => some h
    | none => sorted.head?

/-- A record changed by its identity, and one of its pairs. -/
def Inst.modRec (id : Nat) (f : Backlog → Backlog) (i : Inst) : Inst :=
  { i with cod := { i.cod with backlog := i.cod.backlog.map (fun r => if r.id = id then f r else r) } }
def Backlog.setSent (f : FragId) (n : Nat) (r : Backlog) : Backlog :=
  { r with owes := r.owes.map (fun o => if o.frag = f then { o with sent := n } else o) }

/-- The bytes a chunk held at the step of a record: its present bytes less newer deltas (R103). -/
def Inst.chunkAtRec (r : Backlog) (i : Inst) : Inst × Bytes :=
  let newer := (i.recordsOf r.chunk).filter (fun p => r.id < p.id)
  let cur : Inst × Bytes := match i.chunkSlot r.chunk with
    | some s => let d := i.readSlot s; (d.1, joinLines d.2)
    | none => (i, ((i.flt.copies.find? (fun k => k.chunk = r.chunk)).map (fun k => k.bytes)).getD (List.replicate 4096 0))
  (cur.1, newer.foldl (fun b p => xorBytes b (((List.range 16).map p.granule).flatten)) cur.2)

/-- The granules sent to a holder (R90, R114, R245). -/
def Inst.oweGranules (m : MapImage) (r : Backlog) (o : Owe) (pos : Nat) (i : Inst) : Inst × Nat × List Bytes :=
  if o.frag.role = 3 then
    if i.cod.needFull.contains (r.chunk.ctx, o.frag) then
      let w := match m.cls r.chunk.cls with | some c => formatWidth c.format | none => 4
      let b := i.chunkAtRec r
      let s := shadowDelta w (r.step % 2 ^ 32) none b.2 true
      (b.1, s.1, s.2)
    else match r.shadow with
      | some s => (i, s.1, s.2)
      | none => (i, 0, [])
  else
    let c : Byte := if o.frag.role = 2 then coef o.frag.index pos else 1
    (i, r.mask, r.delta.map (gfScale c))

/-- The poison flags of the granules sent to a holder: those of the staging lines they come from; of a shadow sub-row, whose granules
each encode several lines, all of them, unless the sub-row is formed anew from the chunk (R114, R139; log entry 138). -/
def Inst.owePoison (r : Backlog) (o : Owe) (mask : Nat) (i : Inst) : Nat :=
  let marks := i.stagedFlags (.delta r.id)
  if o.frag.role = 3 then (if marks = 0 || i.cod.needFull.contains (r.chunk.ctx, o.frag) then 0 else 2 ^ popCount mask - 1)
  else ((bitsSet 16 mask).zipIdx.filter (fun g => marks.testBit g.1)).foldl (fun a g => a ||| 2 ^ g.2) 0

/-- The bodies of a step towards a holder (R91 to R93). -/
def deltaBodyOf (r : Backlog) (o : Owe) (pos mask : Nat) : DeltaBody :=
  { stripe := o.frag.stripe, row := o.frag.row, srcPos := pos, dstRole := o.frag.role, dstIndex := o.frag.index,
    count := popCount mask, mask := mask, step := r.step % 2 ^ 32, prev := r.prev, first := o.first }
def commitBodyOf (r : Backlog) (o : Owe) (pos mask : Nat) : CommitBody :=
  { stripe := o.frag.stripe, row := o.frag.row, srcPos := pos, dstRole := o.frag.role, dstIndex := o.frag.index,
    first := o.first, reconstructed := r.recon, mask := mask, step := r.step % 2 ^ 32, prev := r.prev, digest := r.digest }

/-- A LEDGER_RETIRE to the ledger holders of a range (R32, R95, R110). -/
def Inst.sendRetire (x : Nat) (hs : List Home) (b : RetireBody) (i : Inst) : Inst :=
  hs.foldl (fun i h =>
    if isLost (i.ctx x).memb.lost h then i
    else if h = i.self then (i.ledgerRetire x b).1
    else i.send h x 2 .retire (.ledgerRetire b) 0) i

/-- Whether a range's step has committed at every holder of every coded chunk (R32, R194). -/
def Inst.stepCommitted (m : MapImage) (x q step : Nat) (i : Inst) : Bool :=
  i.cod.backlog.all (fun r => !(decide (r.chunk.ctx = x) && decide (r.step = step) && (i.chunkRanges m r.chunk).contains q))

/-- Whether a gradient's step has still to send its retirement: a skipped one has none of its own to send (R26, R32). -/
def Work.unretired (w : Work) : Bool := !w.retired && w.stage != .skipped

/-- The SCALARS entries of a layer and step retired in each name they are kept under, where the conditions of R415 hold over the
ranges served in that name; the kept sets beyond the eight most recently closed steps dropped. -/
def Inst.retireScalars (x : Nat) (i : Inst) : Inst :=
  let run := (i.ctx x).run
  let ripe := i.opt.scalars.filter (fun s => decide (s.ctx = x) && !s.retired && run.closed.contains s.step &&
    i.opt.work.all (fun w => !(decide (w.ctx = x) && decide (w.layer = s.layer) && decide (w.step = s.step) &&
      decide (i.workHome x w.q = s.src) && w.unretired)))
  let j := ripe.foldl (fun i s =>
    match (i.image x).bind (fun m => m.layer s.layer) with
    | none => i
    | some l =>
      (i.sendRetire x (i.scalarHomes x l s.src)
        { range := noRange, step := s.step, layer := s.layer, kind := 1, scalarNode := s.src.node, scalarHome := s.src.idx }).modScalars
          s.src x s.layer s.step (fun t => { t with retired := true })) i
  let recent := lastN 8 (sortBy id run.closed)
  { j with opt := { j.opt with scalars := j.opt.scalars.filter (fun s => s.ctx ≠ x || !s.retired || recent.contains s.step) } }

/-- Ranges that carry UNLEDGERED and have nothing uncommitted left lose the mark (R111). -/
def Inst.clearUnledgered (m : MapImage) (x : Nat) (i : Inst) : Inst :=
  { i with cod := { i.cod with unledgered := i.cod.unledgered.filter (fun u => u.1 ≠ x ||
      i.cod.backlog.any (fun r => decide (r.chunk.ctx = x) && (i.chunkRanges m r.chunk).contains u.2) ||
      i.opt.work.any (fun w => decide (w.ctx = x) && decide (w.q = u.2) && !w.retired && w.stage != .skipped)) } }

/-- The steps of a range that may retire now, in ascending order (R32). -/
def Inst.retireRange (m : MapImage) (x q : Nat) (i : Inst) : Inst :=
  let ws := sortBy (fun w => w.step) (i.opt.work.filter (fun w => decide (w.ctx = x) && decide (w.q = q) && w.unretired))
  let ripe := ws.takeWhile (fun w => w.stage == .written && w.putsDue.isEmpty && i.stepCommitted m x q w.step)
  match ripe.getLast? with
  | none => i
  | some w =>
    let j := i.sendRetire x (i.putHomes x q)
      { range := q, step := w.step, layer := 0, kind := 0, scalarNode := 0, scalarHome := 0 }
    let k : Inst := { j with opt := { j.opt with work := j.opt.work.map (fun v =>
      if v.ctx = x ∧ v.q = q ∧ v.step ≤ w.step ∧ v.stage = .written then { v with retired := true, payload := [] } else v) } }
    { k with opt := { k.opt with work := k.opt.work.filter (fun v => !(v.emitted && v.retired) &&
        !(decide (v.ctx = x) && decide (v.q = q) && decide (v.step < w.step) && v.stage == .skipped)) } }

/-- What follows a record's last acknowledgement: retirement, and at a stand-in the eviction of a copy nothing needs
(R32, R103, R126). -/
def Inst.recordFreed (r : Backlog) (i : Inst) : Inst :=
  let x := r.chunk.ctx
  let idle := (i.recordsOf r.chunk).isEmpty && !i.opt.flights.any (fun f => f.newChunks.any (fun c => c.chunk = r.chunk))
  let j : Inst := if idle then { i with flt := { i.flt with copies := i.flt.copies.filter (fun k => k.chunk ≠ r.chunk || k.info.lost) } } else i
  match j.image x with
  | none => j
  | some m => (((j.chunkRanges m r.chunk).foldl (fun i q => i.retireRange m x q) j).clearUnledgered m x).retireScalars x

/-- A COMMIT acknowledged (R103). -/
def Inst.commitAcked (id : Nat) (f : FragId) (i : Inst) : Inst :=
  match i.cod.backlog.find? (fun r => r.id = id) with
  | none => i
  | some r =>
    let left := r.owes.filter (fun o => o.frag ≠ f)
    let j : Inst := { i with cod := { i.cod with needFull := i.cod.needFull.filter (fun n => n ≠ (r.chunk.ctx, f)) } }
    if left.isEmpty then
      (({ j with cod := { j.cod with backlog := j.cod.backlog.filter (fun p => p.id ≠ id) } } : Inst).recordFreed r).settleLoads
    else j.modRec id (fun r => { r with owes := left })

/-- A RETRY VECTOR_GAP that proves a holder has lost state (R118, cause 0x05). -/
def Inst.gapProvesLoss (id : Nat) (f : FragId) (i : Inst) : Option Home :=
  (i.cod.backlog.find? (fun r => r.id = id)).bind (fun r => (r.owes.find? (fun o => o.frag = f)).bind (fun o =>
    if !o.first && i.cod.backlog.all (fun p => !(decide (p.chunk = r.chunk) && decide (p.id < id) && p.owes.any (fun q => q.frag = f)))
    then some o.home else none))

/-- A holder that wants the sub-row whole (R245). -/
def Inst.wantFull (x : Nat) (f : FragId) (i : Inst) : Inst :=
  { i with cod := { i.cod with needFull := if i.cod.needFull.contains (x, f) then i.cod.needFull else i.cod.needFull ++ [(x, f)] } }

/-- An answer to a DELTA_XOR, SHADOW_PUT or COMMIT (R99, R264). A gap that proves a loss declares a partner lost (R118); for a holder
that is none, the step is sent again. -/
def Inst.codingAnswer (id : Nat) (f : FragId) (isCommit : Bool) (b : RespBody) (op : OutOp) (i : Inst) : Inst :=
  let x := op.ctx
  let redo := if isCommit then i.modRec id (Backlog.setSent f 0) else i
  let wait := fun (j : Inst) => if b.retryAfter = 0 then j else { j with fab := { j.fab with retry := j.fab.retry ++ [op] } }
  if b.status = St.ok then (if isCommit then i.commitAcked id f else i)
  else if b.status = St.malformed then i.modRec id (Backlog.setSent f 3)
  else if b.status = St.retry ∧ b.reason = 4 then wait (redo.wantFull x f)
  else if b.status = St.retry ∧ b.reason = 2 then
    match i.gapProvesLoss id f with
    | some h =>
      let j := redo.declareLost h 0x05
      if isLost (j.ctx x).memb.lost h then j else wait j
    | none => wait redo
  else wait redo

/-- The header of an operation this instance applies to a row it holds itself. -/
def Inst.ownHdr (x : Nat) (i : Inst) : FabHdr :=
  { opcode := 0, ctx := x, srcNode := i.self.node, srcHome := i.self.idx, flagged := false, retransmit := false, message := false,
    granules := 0, ctxTag := 0, mapVersion := (i.ctx x).mapVersion, seq := 0, tag := 0, poison := 0 }

/-- A step sent to a holder: its delta if it has one, then its commit (R91). A holder that is this instance applies both at
once. -/
def Inst.serveOwe (r : Backlog) (o : Owe) (i : Inst) : Inst :=
  match i.image r.chunk.ctx with
  | none => i
  | some m =>
    let x := r.chunk.ctx
    let pos := i.srcPosFor r o.frag
    let g := i.oweGranules m r o pos
    let marks := i.owePoison r o g.2.1
    let d := deltaBodyOf r o pos g.2.1
    let c := commitBodyOf r o pos g.2.1
    let j := ({ g.1 with cod := { g.1.cod with lastHolder := some o.home } } : Inst).count Cnt.commitsSent 1
    let k := j.modRec r.id (Backlog.setSent o.frag 2)
    let n := match k.servesChunk m r.chunk with | some (some l) => if r.recon then k.firstService x l else k | _ => k
    if o.home = i.self then
      let a := if g.2.1 = 0 then (n, ansOk 0) else n.holderDelta (o.frag.role == 3) { n.ownHdr x with poison := marks } d g.2.2
      let b := a.1.holderCommit (a.1.ownHdr x) c
      if b.2.status = St.ok then b.1.commitAcked r.id o.frag
      else (if a.2.status = St.retry ∧ a.2.reason = 4 then b.1.wantFull x o.frag else b.1).modRec r.id (Backlog.setSent o.frag 0)
    else
      let a := if g.2.1 = 0 then n
        else n.send o.home x 1 (.coding r.id o.frag false) (if o.frag.role = 3 then .shadow d g.2.2 else .delta d g.2.2) marks
      a.send o.home x 1 (.coding r.id o.frag true) (.commit c) 0

/-- A spilled record read back: an UNCORRECTABLE line faults the instance (R104, R242). -/
def Inst.readSpilled (r : Backlog) (i : Inst) : Inst :=
  match r.spillAt with
  | none => i
  | some a =>
    let s := i.readSpan false a (256 * (1 + r.delta.length))
    if s.2 then s.1 else s.1.selfFault 0x10 (a / 4096 + 2 ^ 32 * (a / 64 % 64))

/-- CODING_QUEUE_SERVE (R91): the next holder's oldest record. -/
def Inst.codingServe (i : Inst) : Inst :=
  if !i.running then i
  else match roundRobin i.cod.lastHolder i.oweHomes with
    | none => i
    | some h => match i.nextOwe h with
      | some p =>
        let j := i.readSpilled p.1
        if j.running then (j.serveOwe p.1 p.2).pump else j
      | none => i

/-- Poison gone from a chunk: the ledger entries of its ranges at or below its version are freed, and what the skips left with
them (R141). -/
def Inst.poisonCleared (c : ChunkId) (version : Nat) (i : Inst) : Inst :=
  let x := c.ctx
  let step := extendStep (i.ctx x).run.step version
  match i.image x with
  | none => i
  | some m => (i.chunkRanges m c).foldl (fun i q =>
    let j := i.sendRetire x (i.putHomes x q) { range := q, step := step, layer := 0, kind := 0, scalarNode := 0, scalarHome := 0 }
    { j with opt := { j.opt with work := j.opt.work.filter (fun w =>
        !(decide (w.ctx = x) && decide (w.q = q) && decide (w.step ≤ step) && w.stage == .skipped)) } }) i

/-- CODING_QUEUE_SERVE. -/
def execCodingQueueServe (i : InstId) (s : State) : Host.Outcome State Fault Refusal := runInst i Inst.codingServe s

end Sys2Proof.Machine
end

