-- ==== Sys2Proof/Machine/Inbound.lean ====
section
/-! DEFINITION. Arriving operations: admission by power state, channel order, the receiver's checks, and what each operation
code does (R52, R119 to R123, R256 to R279). -/

namespace Sys2Proof.Machine

/-- The lost set of a context in DEGRADED layout, as an answer carries it (R122). -/
def Inst.lostExt (x : Nat) (i : Inst) : RespExt := .lostSet (i.degradedBody x)

/-- The map-version check (R122): the answer to an operation it refuses. -/
def Inst.versionCheck (h : FabHdr) (i : Inst) : Option RespBody :=
  let c := i.ctx h.ctx
  let mine := c.mapVersion
  if isLost c.memb.lost (hdrHome h) then some { respOf St.stale 1 0 with ext := i.lostExt h.ctx }
  else if h.mapVersion = mine then none
  else if h.mapVersion / 256 < mine / 256 then some (respOf St.stale 0 0)
  else if h.mapVersion / 256 = mine / 256 then
    (if h.mapVersion < mine then some { respOf St.stale 0 0 with ext := i.lostExt h.ctx } else some (ansNotReady 3))
  else some (ansNotReady 4)

/-- The version check of a DEGRADED record (R121). -/
def Inst.degradedCheck (h : FabHdr) (b : DegradedBody) (i : Inst) : Option RespBody :=
  let c := i.ctx h.ctx
  if isLost c.memb.lost (hdrHome h) then some { respOf St.stale 1 0 with ext := i.lostExt h.ctx }
  else if b.imageVersion = c.imageVersion then none
  else if b.imageVersion < c.imageVersion then some (respOf St.stale 0 0)
  else some (ansNotReady 4)

/-- The receiver's checks (R120, R123, R267; log entry 36 for a fenced context): the answer to an operation it refuses. -/
def Inst.receive (h : FabHdr) (b : OpBody) (i : Inst) : Option RespBody :=
  let c := i.ctx h.ctx
  if c.map.state = 2 then some (ansNotReady 5)
  else if !c.live then some (ansNotReady 1)
  else match b with
    | .handshake _ => none
    | .degraded d =>
      if h.ctxTag ≠ (match c.map.image with | some m => ctxTagOf m.head.seed | none => 0) then some (respOf St.ctxMismatch 0 0)
      else i.degradedCheck h d
    | _ =>
      if h.ctxTag ≠ (match c.map.image with | some m => ctxTagOf m.head.seed | none => 0) then some (respOf St.ctxMismatch 0 0)
      else if c.memb.fenced || c.memb.offline then some (ansNotReady 2)
      else if c.memb.saturated then some (ansNotReady 7)
      else match i.versionCheck h with
        | some r => some r
        | none =>
          if !i.matched h.ctx (hdrHome h) then some (ansNotReady 2)
          else if c.memb.rollback then some (ansRetry 9)
          else none

/-- A pair matched in both directions leaves the join set, and its silence timer arms (R263, R277). -/
def Inst.noteMatched (x : Nat) (h : Home) (i : Inst) : Inst :=
  if i.matched x h then
    { i with fab := { i.fab with joins := i.fab.joins.filter (fun j => j ≠ (x, h)) },
             hb := { i.hb with partners := i.hb.partners.map (fun p => if p.home = h then { p with armed := true } else p) } }
  else i

/-- A peer no longer regarded as matched in a context (R7, R264). -/
def Inst.unmatch (x : Nat) (h : Home) (i : Inst) : Inst :=
  i.modMemb x (fun m => { m with matchOut := m.matchOut.filter (· ≠ h), matchIn := m.matchIn.filter (· ≠ h) })

/-- MAP_HANDSHAKE (R7, R262, R277): joins admitted, the three values compared; a peer of another contract is unmatched. -/
def Inst.applyHandshake (h : FabHdr) (b : HandshakeBody) (i : Inst) : Inst × RespBody :=
  let x := h.ctx
  let src := hdrHome h
  let known := i.matched x src || i.fab.joins.contains (x, src)
  if !known && 32 ≤ i.fab.joins.length then (i, ansNotReady 6)
  else
    let j : Inst := if known then i else { i with fab := { i.fab with joins := i.fab.joins ++ [(x, src)] } }
    let mine := j.handshakeBody x false 0
    if b.imageVersion = mine.imageVersion ∧ b.contract = mine.contract ∧ b.ctxTag = mine.ctxTag then
      let k := j.modMemb x (fun m => { m with matchIn := if m.matchIn.contains src then m.matchIn else m.matchIn ++ [src] })
      let waiting := k.fab.all.any (fun o => decide (o.ctx = x) && decide (o.dst = src) && o.body.code == 0x0C)
      let n := if (k.ctx x).memb.matchOut.contains src || waiting || (k.ctx x).memb.fenced then k else k.offer x src
      (n.noteMatched x src, ansOk 3)
    else
      ((if b.contract = mine.contract then j else j.unmatch x src).event 0x1105 (some x)
          [(20, 2, src.node), (22, 1, src.idx), (24, 4, b.imageVersion), (28, 4, b.contract)],
       { respOf St.mismatch 0 0 with ext := .handshake mine })

/-- What an operation does once it applies (R258): the response with its poison flags, or none while it waits. -/
def Inst.applyBody (o : InOp) (i : Inst) : Inst × Option (RespBody × Nat) :=
  let x := o.hdr.ctx
  let plain := fun (r : Inst × RespBody) => (r.1, some (r.2, 0))
  match o.body with
  | .delta b p => plain (i.holderDelta false o.hdr b p)
  | .shadow b p => plain (i.holderDelta true o.hdr b p)
  | .commit b => plain ((i.heardFrom x ((i.chunkOfFrag x b.stripe b.row b.srcPos).map (fun c => c.q)) (hdrHome o.hdr)).holderCommit o.hdr b)
  | .ledgerPut e => plain ((i.heardFrom x (if e.kind = 0 then some e.range else none) (hdrHome o.hdr)).ledgerStore x o.hdr.poison e)
  | .ledgerRetire b => plain ((i.ledgerRetire x b).1.retrySelfPuts, (i.ledgerRetire x b).2)
  | .ledgerRead b => plain (i.ledgerRead x b)
  | .fragRead b =>
    if (b.mode = 0 ∧ b.role ≠ 0) ∨ (b.mode = 1 ∧ b.role = 0) ∨ (b.mode = 2 ∧ b.role ≠ 1 ∧ b.role ≠ 2) ∨ 3 < b.role ∨ 2 < b.mode then
      plain (i.malformed 6 o.hdr)
    else i.holderFrag x b
  | .rebuildPut b p => plain (i.holderRebuild o.hdr b p)
  | .cutover b => plain (i.holderCutover x b)
  | .gradForward e => plain (i.holderForward o.hdr e)
  | .reemitForward r => plain (i.holderReemit { r with ctx := x })
  | .degraded d => plain (i.merge x d (hdrHome o.hdr), ansOk 0)
  | .handshake b => plain (i.applyHandshake o.hdr b)
  | .unlisted c => plain (i.malformed c o.hdr)

/-- The receiving end of a channel with a SEQ answered: NEXT moves over answered SEQs, the record keeps 64 (R269, R271). -/
def advanceNext : Nat → Nat → List Nat → Nat
  | 0, n, _ => n
  | k + 1, n, l => if l.contains n then advanceNext k ((n + 1) % 2 ^ 32) l else n
def Chan.answer (seq : Nat) (b : RespBody) (c : Chan) : Chan :=
  match c.inNext with
  | none => c
  | some n =>
    let l := if c.answered.contains seq then c.answered else c.answered ++ [seq]
    let n2 := advanceNext 64 n l
    { c with inNext := some n2, answered := l.filter (fun s => (s + 2 ^ 32 - n2) % 2 ^ 32 < 64),
             deferred := c.deferred.filter (· ≠ seq),
             record := lastN 64 (c.record.filter (fun a => a.seq ≠ seq) ++ [{ seq := seq, status := b.status, reason := b.reason, info := b.info }]) }

/-- A DEGRADED record of a newer image logged (R121). -/
def Inst.noteAhead (o : InOp) (b : RespBody) (i : Inst) : Inst :=
  match o.body with
  | .degraded d =>
    if b.status = St.notReady ∧ b.reason = 4 then
      i.event 0x1504 (some o.hdr.ctx) [(20, 2, o.hdr.srcNode), (22, 1, o.hdr.srcHome), (24, 4, d.imageVersion), (28, 1, d.entries.length)]
    else i
  | _ => i

/-- An operation answered: the response goes out and its SEQ counts as answered (R264, R269). -/
def Inst.answerOp (o : InOp) (b : RespBody) (poison : Nat) (i : Inst) : Inst :=
  ((i.noteAhead o b).modChan (hdrHome o.hdr) (Chan.answer o.hdr.seq b)).respond o.hdr o.body.code poison b

/-- An operation taken in its order: checked, applied, answered, or kept until what it waits for is there. -/
def Inst.takeOp (o : InOp) (i : Inst) : Inst :=
  match i.receive o.hdr o.body with
  | some r => i.answerOp o r 0
  | none =>
    let a := i.applyBody o
    match a.2 with
    | some r => a.1.answerOp o r.1 r.2
    | none =>
      let j := a.1.modChan (hdrHome o.hdr) (fun c => { c with deferred := if c.deferred.contains o.hdr.seq then c.deferred else c.deferred ++ [o.hdr.seq] })
      { j with flt := { j.flt with waiters := j.flt.waiters ++ [o] } }

/-- Whether an operation of a channel may apply: every lower SEQ answered. One that still waits for its answer, a FRAG_READ for a repair
or a decode, holds what follows it, flagged or not (R269, R270, R275; log entry 139). -/
def Chan.ripe (c : Chan) (o : InOp) : Bool :=
  match c.inNext with
  | none => false
  | some n => (List.range ((o.hdr.seq + 2 ^ 32 - n) % 2 ^ 32)).all (fun k => c.answered.contains ((n + k) % 2 ^ 32))

/-- Waiting operations of a channel taken as their gaps fill. -/
def Inst.drainChan (h : Home) : Nat → Inst → Inst
  | 0, i => i
  | n + 1, i =>
    let c := i.chan h
    match c.waiting.find? (fun o => c.ripe o) with
    | none => i
    | some o => Inst.drainChan h n ((i.setChan { c with waiting := c.waiting.filter (fun p => p ≠ o) }).takeOp o)

/-- FRAG_READs that wait for a repair or a decode tried again, then the operations behind them (R243, R259). -/
def Inst.settleWaiters (i : Inst) : Inst :=
  let ws := i.flt.waiters
  let j := ws.foldl (fun i o => i.takeOp o) { i with flt := { i.flt with waiters := [] } }
  ((ws.map (fun o => hdrHome o.hdr)).eraseDups).foldl (fun i h => i.drainChan h 64) j

/-- The channel reset of a handshake: NEXT set past its SEQ, waiting operations and the answer record discarded (R271). -/
def Inst.resetChan (h : Home) (base : Nat) (i : Inst) : Inst :=
  let j := i.modChan h (fun c => { c with inNext := some ((base + 1) % 2 ^ 32), answered := [], deferred := [], record := [], waiting := [] })
  { j with flt := { j.flt with waiters := j.flt.waiters.filter (fun o => hdrHome o.hdr ≠ h) },
           fab := { j.fab with partials := j.fab.partials.filter (fun o => hdrHome o.hdr ≠ h) } }

/-- A retransmission (R271): the recorded answer, or a fresh one for a read or a handshake; older than the record, dropped. -/
def Inst.again (o : InOp) (i : Inst) : Inst :=
  if (i.chan (hdrHome o.hdr)).deferred.contains o.hdr.seq then i
  else match (i.chan (hdrHome o.hdr)).record.find? (fun a => a.seq = o.hdr.seq) with
    | some a => if o.body.repeats then i.takeOp o else i.respond o.hdr o.body.code 0 (respOf a.status a.reason a.info)
    | none => i

/-- An operation at a channel with a base (R269). An operation the receiver's checks refuse is answered on arrival; one ahead of
a gap waits, or is dropped where no space is left. -/
def Inst.arriveChan (o : InOp) (next : Nat) (i : Inst) : Inst :=
  let h := hdrHome o.hdr
  let c := i.chan h
  let d := (o.hdr.seq + 2 ^ 32 - next) % 2 ^ 32
  if 2 ^ 31 ≤ d || c.answered.contains o.hdr.seq || c.deferred.contains o.hdr.seq then i.again o
  else if 64 ≤ d then i.count Cnt.fabricSeqDrop 1
  else if c.waiting.any (fun w => w.hdr.seq = o.hdr.seq) then i
  else if c.ripe o then (i.takeOp o).drainChan h 64
  else match i.receive o.hdr o.body with
    | some r => (i.answerOp o r 0).drainChan h 64
    | none =>
      if i.ctxRoom o.hdr.ctx 1 (256 * (1 + o.body.payload.length)) then i.setChan { c with waiting := c.waiting ++ [o] } else i.poolFail 1

/-- A LEDGER_PUT of which not every granule has arrived (R94, R136; log entry 145). -/
def OpBody.cut : OpBody → Bool
  | .ledgerPut e => decide (e.payload.length < e.payloadBytes)
  | _ => false

/-- What has arrived of an operation, forgotten; and kept while the rest may still come (R136). -/
def Inst.forgetPartial (o : InOp) (i : Inst) : Inst :=
  { i with fab := { i.fab with partials := i.fab.partials.filter (fun p => !(decide (hdrHome p.hdr = hdrHome o.hdr) && decide (p.hdr.seq = o.hdr.seq))) } }
def Inst.keepPartial (o : InOp) (i : Inst) : Inst :=
  let c := i.chan (hdrHome o.hdr)
  match c.inNext with
  | none => i
  | some n =>
    if 2 ^ 31 ≤ (o.hdr.seq + 2 ^ 32 - n) % 2 ^ 32 || c.answered.contains o.hdr.seq || (i.receive o.hdr o.body).isSome then i
    else
      let j := i.forgetPartial o
      { j with fab := { j.fab with partials := j.fab.partials ++ [o] } }

/-- An operation at a running instance that has arrived whole: a channel reset acts whatever the answer; without a base,
INSTANCE_OFF (R271, R329). -/
def Inst.arriveWhole (o : InOp) (i : Inst) : Inst :=
  let h := hdrHome o.hdr
  match o.body with
  | .handshake b =>
    if b.channelReset then
      let j := i.resetChan h b.seqBase
      match j.receive o.hdr o.body with
      | some r => j.respond o.hdr 0x0C 0 r
      | none => let a := j.applyHandshake o.hdr b; a.1.respond o.hdr 0x0C 0 a.2
    else match (i.chan h).inNext with
      | some n => i.arriveChan o n
      | none => i.respond o.hdr 0x0C 0 (respOf St.instOff 0 0)
  | _ => match (i.chan h).inNext with
    | some n => i.arriveChan o n
    | none => i.respond o.hdr o.body.code 0 (respOf St.instOff 0 0)

/-- An operation at a running instance: one cut off in its payload applies nothing and is not answered (R94, R136). -/
def Inst.arriveRunning (o : InOp) (i : Inst) : Inst :=
  if o.body.cut then i.keepPartial o else (i.forgetPartial o).arriveWhole o

/-- An operation that finds the front end full (R271, R276): answered at once, its SEQ kept for the end of the wake; a channel reset
takes effect all the same, and what the front end holds of the channel is discarded with it. -/
def Inst.frontRefuse (o : InOp) (i : Inst) : Inst :=
  let reset := match o.body with | .handshake b => if b.channelReset then some b.seqBase else none | _ => none
  match reset with
  | some base =>
    let j := i.resetChan (hdrHome o.hdr) base
    ({ j with fab := { j.fab with frontEnd := j.fab.frontEnd.filter (fun b => hdrHome b.op.hdr ≠ hdrHome o.hdr) } }).respond o.hdr 0x0C 0 (ansRetry 6)
  | none => ({ i with fab := { i.fab with frontEnd := i.fab.frontEnd ++ [Buffered.mk o true] } }).respond o.hdr o.body.code 0 (ansRetry 6)

/-- Admission (R40, R276, R278): a sleeping instance buffers 64 operations and wakes; one going to, in or returning from OFF
answers INSTANCE_OFF; one that starts answers NOT_READY; a faulted one answers nothing. -/
def Inst.arrive (o : InOp) (i : Inst) : Inst :=
  match i.pw.state with
  | .active => (i.arriveRunning o).checkAllDone.pump
  | .doze | .nap =>
    if (i.fab.frontEnd.filter (fun b => !b.refused)).length < 64 then
      ({ i with fab := { i.fab with frontEnd := i.fab.frontEnd ++ [Buffered.mk o false] } }).wakeUp
    else i.frontRefuse o
  | .goingOff | .off | .restoring => i.respond o.hdr o.body.code 0 (respOf St.instOff 0 0)
  | .starting | .resetting =>
    let j := match o.body with
      | .handshake b => if b.channelReset then i.resetChan (hdrHome o.hdr) b.seqBase else i
      | _ => i
    j.respond o.hdr o.body.code 0 (ansNotReady 1)
  | .faulted => i

/-- The operations the front end buffered, taken in their order at the end of a wake (R276). -/
def Inst.drainFrontEnd (i : Inst) : Inst :=
  (i.fab.frontEnd.foldl (fun (i : Inst) b =>
    if b.refused then (i.modChan (hdrHome b.op.hdr) (Chan.answer b.op.hdr.seq (ansRetry 6))).drainChan (hdrHome b.op.hdr) 64
    else i.arriveRunning b.op) { i with fab := { i.fab with frontEnd := [] } }).checkAllDone.pump

/-- An operation as its header names it: a code R258 does not list is no operation's (R258). -/
def InOp.arrived (h : FabHdr) (b : OpBody) : InOp := { hdr := h, body := if h.opcode = b.code then b else .unlisted h.opcode }

/-- DELTA_XOR. -/
def execDeltaXor (i : InstId) (h : FabHdr) (b : DeltaBody) (payload : List Bytes) (s : State) : Host.Outcome State Fault Refusal :=
  runInst i (Inst.arrive (InOp.arrived h (.delta b payload))) s

/-- SHADOW_PUT. -/
def execShadowPut (i : InstId) (h : FabHdr) (b : DeltaBody) (payload : List Bytes) (s : State) : Host.Outcome State Fault Refusal :=
  runInst i (Inst.arrive (InOp.arrived h (.shadow b payload))) s

/-- COMMIT. -/
def execCommit (i : InstId) (h : FabHdr) (b : CommitBody) (s : State) : Host.Outcome State Fault Refusal :=
  runInst i (Inst.arrive (InOp.arrived h (.commit b))) s

/-- LEDGER_PUT. -/
def execLedgerPut (i : InstId) (h : FabHdr) (e : LedgerEntry) (s : State) : Host.Outcome State Fault Refusal :=
  runInst i (Inst.arrive (InOp.arrived h (.ledgerPut e))) s

/-- LEDGER_RETIRE. -/
def execLedgerRetire (i : InstId) (h : FabHdr) (b : RetireBody) (s : State) : Host.Outcome State Fault Refusal :=
  runInst i (Inst.arrive (InOp.arrived h (.ledgerRetire b))) s

/-- LEDGER_READ. -/
def execLedgerRead (i : InstId) (h : FabHdr) (b : RetireBody) (s : State) : Host.Outcome State Fault Refusal :=
  runInst i (Inst.arrive (InOp.arrived h (.ledgerRead b))) s

/-- FRAG_READ. -/
def execFragRead (i : InstId) (h : FabHdr) (b : FragBody) (s : State) : Host.Outcome State Fault Refusal :=
  runInst i (Inst.arrive (InOp.arrived h (.fragRead b))) s

/-- REBUILD_PUT. -/
def execRebuildPut (i : InstId) (h : FabHdr) (b : RebuildBody) (payload : List Bytes) (s : State) : Host.Outcome State Fault Refusal :=
  runInst i (Inst.arrive (InOp.arrived h (.rebuildPut b payload))) s

/-- CUTOVER. -/
def execCutover (i : InstId) (h : FabHdr) (b : CutoverBody) (s : State) : Host.Outcome State Fault Refusal :=
  runInst i (Inst.arrive (InOp.arrived h (.cutover b))) s

/-- GRAD_FORWARD. -/
def execGradForward (i : InstId) (h : FabHdr) (e : LedgerEntry) (s : State) : Host.Outcome State Fault Refusal :=
  runInst i (Inst.arrive (InOp.arrived h (.gradForward e))) s

/-- REEMIT_FORWARD. -/
def execReemitForward (i : InstId) (h : FabHdr) (r : ReemitReq) (s : State) : Host.Outcome State Fault Refusal :=
  runInst i (Inst.arrive (InOp.arrived h (.reemitForward r))) s

/-- DEGRADED. -/
def execDegraded (i : InstId) (h : FabHdr) (b : DegradedBody) (s : State) : Host.Outcome State Fault Refusal :=
  runInst i (Inst.arrive (InOp.arrived h (.degraded b))) s

/-- MAP_HANDSHAKE. -/
def execMapHandshake (i : InstId) (h : FabHdr) (b : HandshakeBody) (s : State) : Host.Outcome State Fault Refusal :=
  runInst i (Inst.arrive (InOp.arrived h (.handshake b))) s

end Sys2Proof.Machine
end

