-- ==== Sys2Proof/Machine/Decode.lean ====
section
/-! DEFINITION. Applying a decode plan to a row whose fragments are in hand (R83, R86, R127, R416). -/

namespace Sys2Proof.Machine

/-- The bytes of a fragment in hand, or zeros. -/
def fragBytes (n : Nat) (f : Option Frag) : Bytes := match f with | some f => if f.bytes.isEmpty then List.replicate n 0 else f.bytes | none => List.replicate n 0

/-- A member's chunk at the version a parity records for it; zeros where it never committed (R86, R96). -/
def RowJob.memberAt (r : RowJob) (g : Geom) (n : Nat) (p : Pos) (m : Nat) : Bytes :=
  match r.parity p with
  | none => List.replicate n 0
  | some f =>
    let e := vecEntry g p m f.vector
    if e.committed then fragBytes n (r.data m e.version) else List.replicate n 0

/-- Local repair of a member at the versions its local parity records (R83). -/
def RowJob.localChunk (r : RowJob) (g : Geom) (n m : Nat) : Bytes :=
  let p := Pos.local_ (g.colonyOf m)
  ((g.members (g.colonyOf m)).filter (· ≠ m)).foldl (fun acc k => xorBytes acc (r.memberAt g n p k)) (fragBytes n (r.parity p))

/-- The decoded chunk of a row's target (R83). -/
def RowJob.decode (r : RowJob) (g : Geom) (plan : Plan) (n : Nat) : Bytes :=
  let t := r.target.index
  if plan.localFix.contains t then r.localChunk g n t
  else
    let at_ := fun (p : Pos) (m : Nat) => if plan.localFix.contains m then r.localChunk g n m else r.memberAt g n p m
    let res := plan.pivots.map (residual g plan.unknowns at_ (fun p => fragBytes n (r.parity p)))
    (((solveUnknowns plan res n).find? (fun u => u.1 = t)).map Prod.snd).getD (List.replicate n 0)

/-- The pivots that record a row's target, each with its entry. -/
def RowJob.targetEntries (r : RowJob) (g : Geom) (plan : Plan) : List (Pos × VecEntry) :=
  ((rowNeed g plan r.target.index).pivots.filter (fun p => parityCoef g p r.target.index ≠ 0)).filterMap (fun p =>
    (r.parity p).map (fun f => (p, vecEntry g p r.target.index f.vector)))

/-- What a decoded row gives: its version where the member has committed, its bytes, whether poison passed into it, and the
pivot whose digest it fails (R127, R129, R140). -/
structure RowOut where
  version   : Nat
  committed : Bool
  bytes     : Bytes
  poison    : Bool
  bad       : Option Pos
  deriving DecidableEq, Repr

/-- A row's plan applied (R83, R127). `whole` says that the fragments are whole chunks, whose digest can be checked. -/
def RowJob.apply (r : RowJob) (g : Geom) (plan : Plan) (n : Nat) (whole : Bool) : RowOut :=
  let b := r.decode g plan n
  let es := r.targetEntries g plan
  let e := ((es.head?).map Prod.snd).getD { version := 0, digest := 0, committed := false, reconstructed := false }
  let d := crc64 b
  { version := e.version, committed := e.committed, bytes := b, poison := r.got.any (fun f => f.poison),
    bad := if whole && e.committed then (es.find? (fun p => p.2.digest ≠ d)).map Prod.fst else none }

/-- The geometry of a stripe of a context's committed image. -/
def Inst.geomOf (x stripe : Nat) (i : Inst) : Option StripeRec := (i.image x).bind (fun m => m.stripe stripe)

/-- A row with every fragment in hand decoded (R127); none while one is missing. -/
def Inst.decodeRow (x : Nat) (r : RowJob) (n : Nat) (i : Inst) : Inst × Option RowOut :=
  if !i.rowReady x r then (i, none)
  else match i.geomOf x r.target.stripe with
    | none => (i, none)
    | some s =>
      let p := i.planOf x s r.pattern
      match p.2 with
      | some plan => (p.1.count Cnt.decodes 1, some (r.apply s.geom plan n (n == 4096)))
      | none => (p.1, none)

/-- A failed digest check: counted, logged, and the row tried again without the pivot whose entry failed (R129). -/
def Inst.digestFailed (x : Nat) (r : RowJob) (p : Pos) (i : Inst) : Inst × RowJob :=
  let j := (i.count Cnt.digestFail 1).event 0x1502 (some x) [(24, 4, r.target.stripe), (28, 4, r.target.row)]
  (j, { (r.without p false) with tried := r.tried ++ [r.pattern] })

/-- The element width of the SHADOW class at a row. -/
def Inst.heldRowWidth (x : Nat) (r : RowJob) (i : Inst) : Nat :=
  match i.image x with | some m => m.shadowWidth r.target.stripe r.target.index r.target.row | none => 4

/-- A decoded row put into a job's row: checked, or tried again; a member that the pivot records as never committed has a chunk
of zeros (R127). -/
def Inst.settleRow (x : Nat) (r : RowJob) (i : Inst) : Inst × RowJob :=
  if r.done.isSome || r.failed.isSome then (i, r)
  else if r.target.role = 3 then
    match r.parity r.target.pos, i.heldRowWidth x r with
    | some f, w => let c := shadowRestore w f.bytes
                   (i, { r with done := some (c.2, c.1, f.poison) })
    | none, _ => (i, r)
  else
    let d := i.decodeRow x r 4096
    match d.2 with
    | none => (d.1, r)
    | some o =>
      match o.bad with
      | some p => d.1.digestFailed x r p
      | none => (d.1, { r with done := some (if o.committed then (o.version, o.bytes, o.poison)
                                            else (2 ^ 32, List.replicate 4096 0, false)) })

end Sys2Proof.Machine
end

