-- ==== Sys2Proof/Machine/FaultSvc.lean ====
section
/-! DEFINITION. A stand-in's decode of a unit, from its rows through the ledger to the roll-forward (R107, R110, R115, R124 to
R130, R138, R142, R197, R416). -/

namespace Sys2Proof.Machine

/-- What the parities in hand record for a row's target. -/
def RowJob.vecs (r : RowJob) (g : Geom) : List (Pos × VecEntry) :=
  r.got.filterMap (fun f =>
    if f.vector.isEmpty || parityCoef g f.pos r.target.index = 0 then none else some (f.pos, vecEntry g f.pos r.target.index f.vector))

/-- The highest version recorded for a row's target, as a step; none where every entry has COMMITTED clear (R138, R142). -/
def RowJob.top (counter : Nat) (r : RowJob) (g : Geom) : Option Nat :=
  (((r.vecs g).filter (fun e => e.2.committed)).map (fun e => extendStep counter e.2.version)).max?

/-- The lowest version every parity in hand records for a row's target; none where one has COMMITTED clear (R110). -/
def RowJob.floor (counter : Nat) (r : RowJob) (g : Geom) : Option Nat :=
  if (r.vecs g).all (fun e => e.2.committed) then ((r.vecs g).map (fun e => extendStep counter e.2.version)).min? else none

/-- The geometry a row is decoded under. -/
def Inst.rowGeom (x : Nat) (r : RowJob) (i : Inst) : Geom :=
  match i.geomOf x r.target.stripe with | some s => s.geom | none => { k := 1, g := 1, r := 0 }

/-- A row no plan can decode: zeros with POISON at the highest recorded version, and its layer HALTED; nothing more of a chunk
that is LOST_UNREPAIRED already (R135, R142). One that no vector records as committed may still be loaded (R141, R281). -/
def Inst.standinLost (m : MapImage) (x : Nat) (r : RowJob) (cause : Nat) (i : Inst) : Inst :=
  let top := r.top (i.ctx x).run.step (i.rowGeom x r)
  if i.flt.copies.any (fun k => decide (k.chunk = r.chunk) && k.info.lost) then i
  else
    (i.putCopy { chunk := r.chunk, info := { version := (top.getD m.head.baseStep) % 2 ^ 32, digest := 0, attr := 5 },
                 fresh := r.target.role != 3 && top.isNone, bytes := List.replicate 4096 0 }).lostRecord r.chunk (some r.target) cause

/-- A decoded row kept as a copy: RECONSTRUCTED, or SHADOW_APPROX; one that never committed is zero at the base version
(R127, R130, R135). -/
def Inst.keepRow (m : MapImage) (r : RowJob) (d : Nat × Bytes × Bool) (i : Inst) : Inst :=
  let fresh := if r.target.role = 3 then d.1 == 0 else decide (2 ^ 32 ≤ d.1)
  let v := if fresh then m.head.baseStep % 2 ^ 32 else d.1
  let attr := 2 + b2n d.2.2 + (if r.target.role = 3 then 8 else 0)
  let j := i.putCopy { chunk := r.chunk, info := { version := v, digest := crc64 d.2.1, attr := attr }, fresh := fresh, bytes := d.2.1 }
  if r.chunk.cls = m.master ∧ r.chunk.k = 0 then
    j.noteFormat r.chunk v (((m.layerOf r.chunk.q).map (fun l => l.tformat)).getD 0)
  else j

/-- The rows of a finished decode put into copies; a poisoned one is kept poisoned (R140). -/
def Inst.keepRows (m : MapImage) (x : Nat) (rows : List RowJob) (i : Inst) : Inst :=
  rows.foldl (fun i r => match r.done, r.failed with
    | some d, _ => i.keepRow m r d
    | none, some c => i.standinLost m x r (if r.target.role = 3 then 0x24 else c)
    | none, none => i) i

/-- A job over: the reads it held up go on, and decodes that waited begin (R132, R134). -/
def Inst.finishJob (id : Nat) (i : Inst) : Inst := ((i.dropJob id).settleWaiters).wakeJobs

/-- The lost member and first range of a stand-in's job. -/
def Job.standinOf (j : Job) : Option (Home × Nat) := match j.kind with | .standin l q => some (l, q) | _ => none

/-- The ranges of a job's unit. -/
def Inst.jobRanges (x q : Nat) (i : Inst) : List Nat := match i.unitOf x q with | some u => u.ranges | none => [q]

/-- The version of a copy, as a step. -/
def Inst.copyStep (m : MapImage) (x : Nat) (c : ChunkId) (i : Inst) : Nat :=
  match i.flt.copies.find? (fun k => k.chunk = c) with
  | some k => extendStep (i.ctx x).run.step k.info.version
  | none => m.head.baseStep

/-- The step from which a range is rolled forward: the lowest at which a coded chunk of it stands (R115, R128). -/
def Inst.rangeFrom (m : MapImage) (x q : Nat) (i : Inst) : Nat :=
  (((m.chunksOf x q).filter (fun c => m.protOf c ≠ 2)).map (fun c => i.copyStep m x c)).min?.getD m.head.baseStep

/-- The highest version recorded for a range's EXACT rows, else the base step (R138). -/
def Inst.rangeTop (m : MapImage) (x q : Nat) (rows : List RowJob) (i : Inst) : Nat :=
  (((rows.filter (fun r => decide (r.chunk.q = q) && r.target.role == 0 && decide (m.protOf r.chunk = 0))).filterMap
    (fun r => r.top (i.ctx x).run.step (i.rowGeom x r))).max?).getD m.head.baseStep

/-- The last step a stand-in asks the ledger for (log entry 32). -/
def Inst.lastProbe (m : MapImage) (x q : Nat) (rows : List RowJob) (i : Inst) : Nat :=
  max (i.ctx x).run.step (max (i.rangeFrom m x q + 1) (i.rangeTop m x q rows + 1))

/-- The ledger holder that serves a range's roll-forward: that of the colony that supplies the stand-in (R124, R128). -/
def Inst.rollHolder (m : MapImage) (x q : Nat) (i : Inst) : Option Home :=
  (i.serveColony m x q).bind (fun p => m.fragHome p.1.id 4 p.2)

/-- An entry read for the roll-forward: kept unless its payload fails its CRC (R107). -/
def Inst.rollEntry (id : Nat) (e : LedgerEntry) (i : Inst) : Inst :=
  match i.job id with
  | none => i
  | some j =>
    if crc64 e.payload = e.crc then
      i.putJob { j with ledger := j.ledger.filter (fun o => !sameKey o e) ++ [e] }
    else (i.count Cnt.ledgerCrcFail 1).event 0x1805 (some j.ctx) [(24, 6, e.range), (30, 2, e.step)]

/-- Whether the layer of a unit declares step scalars. -/
def Inst.unitScalars (x q : Nat) (i : Inst) : Option (Nat × Bool) :=
  (i.unitOf x q).map (fun u => (u.layer.id, match i.program u.layer.program with | some p => p.scalars | none => false))

/-- The steps for which a job has a gradient entry, ascending. -/
def Job.entrySteps (j : Job) : List Nat :=
  (sortBy (fun n => n) ((j.ledger.filter (fun e => e.kind = 0)).map (fun e => e.step))).eraseDups

/-- The read of the gradient entry of a range and step, and that of the scalars of a layer and step (R190). -/
def gradProbe (q step : Nat) : RetireBody := { range := q, step := step, layer := 0, kind := 0, scalarNode := 0, scalarHome := 0 }
def scalarProbe (l : Home) (layer step : Nat) : RetireBody :=
  { range := noRange, step := step, layer := layer, kind := 1, scalarNode := l.node, scalarHome := l.idx }

/-- The ledger read after another: the next step of the range, the next range, then the scalars of each step found (R108, R128). -/
def Inst.probeAfter (m : MapImage) (j : Job) (l : Home) (q : Nat) (b : Option RetireBody) (i : Inst) : Option RetireBody :=
  let x := j.ctx
  let first := fun (qs : List Nat) => qs.head?.map (fun r => gradProbe r (i.rangeFrom m x r + 1))
  let scalar := fun (s : Nat) => match i.unitScalars x q with
    | some (layer, true) => (j.entrySteps.find? (fun t => s < t)).map (scalarProbe l layer)
    | _ => none
  match b with
  | none => first (i.jobRanges x q)
  | some b =>
    if b.kind = 1 then scalar b.step
    else if b.step < i.lastProbe m x b.range j.rows then some (gradProbe b.range (b.step + 1))
    else match first ((i.jobRanges x q).filter (fun r => b.range < r)) with
      | some n => some n
      | none => scalar 0

/-- The entries this instance holds itself, as the ledger holder, read in step order (R128). -/
def Inst.rollOwn (m : MapImage) (id : Nat) (j : Job) (l : Home) (q : Nat) (i : Inst) : Inst :=
  let x := j.ctx
  let take := fun (i : Inst) (h : Held) => let r := i.readEntry h
                                         if r.2 then r.1.rollEntry id h.entry else r.1
  let grads := i.cod.ledger.filter (fun h => decide (h.ctx = x) && h.entry.kind == 0 &&
    (i.jobRanges x q).contains h.entry.range && decide (i.rangeFrom m x h.entry.range < h.entry.step))
  let a := grads.foldl take i
  match a.unitScalars x q, a.job id with
  | some (layer, true), some k =>
    (a.cod.ledger.filter (fun h => decide (h.ctx = x) && h.entry.kind == 1 && decide (h.entry.layer = layer) &&
      decide (h.entry.srcNode = l.node) && decide (h.entry.srcHome = l.idx) && k.entrySteps.contains h.entry.step)).foldl take a
  | _, _ => a

/-- The next ledger read sent; after the last, the entries are complete (R128). -/
def Inst.probeNext (id : Nat) (b : Option RetireBody) (i : Inst) : Inst :=
  match i.job id with
  | none => i
  | some j =>
    match j.standinOf, i.image j.ctx with
    | some (l, q), some m =>
      match i.rollHolder m j.ctx q with
      | none => i.putJob { j with phase := 2 }
      | some h =>
        if isLost (i.ctx j.ctx).memb.lost h then i.putJob { j with phase := 2 }
        else if h = i.self then
          let k := i.rollOwn m id j l q
          let fl := (k.ctx j.ctx).memb.floor
          match k.job id with
          | some n => k.putJob { n with phase := 2, floorSeen := fl.map (fun f => (true, f)) }
          | none => k
        else match i.probeAfter m j l q b with
          | some n => i.send h j.ctx 0 (.ledger id) (.ledgerRead n) 0
          | none => i.putJob { j with phase := 2 }
    | _, _ => i

/-- VECTOR_ONLY reads of the surviving parities of a decoded row that are not in hand (R128, R138). -/
def Inst.vectorAsks (x : Nat) (r : RowJob) (i : Inst) : List Ask :=
  if r.target.role ≠ 0 || r.done.isNone then []
  else
    let g := i.rowGeom x r
    let lost := i.lostIn x r.target.stripe
    ((([Pos.local_ (g.colonyOf r.target.index)]) ++ ((List.range g.r).map (fun j => Pos.global (j + 1)))).filter
      (fun p => !lost.contains p && (r.parity p).isNone)).map (fun p => { pos := p, version := 0, mode := 2 })

def Inst.askVectors (x id : Nat) (kind : JobKind) : List RowJob → Inst → Inst × List RowJob
  | [], i => (i, [])
  | r :: t, i =>
    let a := Inst.sendAsks x id kind (i.vectorAsks x r) r i
    let b := Inst.askVectors x id kind t a.1
    (b.1, a.2 :: b.2)

/-- A decode whose rows are all settled: its copies are kept; a lost row ends it, else the ledger is read. -/
def Inst.rowsDone (m : MapImage) (j : Job) (i : Inst) : Inst :=
  let k := i.keepRows m j.ctx j.rows
  if j.rows.any (fun r => r.failed.isSome) then k.finishJob j.id
  else
    let v := k.askVectors j.ctx j.id j.kind j.rows
    (v.1.putJob { j with rows := v.2, phase := 1 }).probeNext j.id none

/-- Rows settled one after another. -/
def Inst.settleRows (x : Nat) : List RowJob → Inst → Inst × List RowJob
  | [], i => (i, [])
  | r :: t, i =>
    let a := i.settleRow x r
    let b := Inst.settleRows x t a.1
    (b.1, a.2 :: b.2)

/-- DECODE_DONE (R127, R129); one that waits for the array does not end (R201). -/
def Inst.decodeDone (id : Nat) (i : Inst) : Inst :=
  match i.job id with
  | none => i
  | some j =>
    if !i.running || !j.isDecode || j.queued || j.phase ≠ 0 || i.arrHolds (.decode id) then i
    else
      let s := i.settleRows j.ctx j.rows
      let k := (s.1.putJob { j with rows := s.2 }).advanceJob id
      match k.job id, k.image j.ctx with
      | some n, some m => (if n.rows.all (fun r => r.done.isSome || r.failed.isSome) then k.rowsDone m n else k).pump
      | _, _ => k

/-- A row decoded again under a plan whose pivots record the highest version (R138). -/
def RowJob.again (g : Geom) (counter top : Nat) (r : RowJob) : RowJob :=
  if r.target.role = 0 ∧ (r.vecs g).any (fun e => e.2.committed && extendStep counter e.2.version == top) then
    ((r.vecs g).filter (fun e => !(e.2.committed && extendStep counter e.2.version == top))).foldl (fun r e => r.without e.1 false)
      { r with done := none, tried := r.tried ++ [r.pattern] }
  else r

/-- The step up to which every surviving holder of a range's coded chunks, SHADOW chunks and factor blocks with it, has committed:
none where one has recorded nothing, or a chunk was not decoded (R110). -/
def Inst.committedTo (m : MapImage) (x q : Nat) (rows : List RowJob) (i : Inst) : Option Nat :=
  let run := (i.ctx x).run.step
  let low := fun (c : ChunkId) => (rows.find? (fun r => r.chunk = c)).bind (fun r =>
    if r.target.role = 0 then r.floor run (i.rowGeom x r)
    else r.done.bind (fun d => if d.1 = 0 then none else some (extendStep run d.1)))
  let lows := ((i.unitChunks x q).filter (fun c => m.protOf c ≠ 2 && (i.chunkRanges m c).contains q)).map low
  if lows.all (fun l => l.isSome) then (lows.filterMap id).min? else none

/-- The lost member's SCALARS entries of a layer whose steps are committed everywhere freed, once every range of the layer that is
served in its name has been decoded (R110). -/
def Inst.retireTaken (m : MapImage) (x q : Nat) (lost : Home) (i : Inst) : Inst :=
  match m.layerOf q with
  | none => i
  | some l =>
    let qs := (i.servedRanges x l).filter (fun r => i.serves x r == some (some lost))
    let vs := qs.map (fun r => (i.flt.settled.find? (fun s => decide (s.1 = x) && decide (s.2.1 = r))).map (fun s => s.2.2))
    match vs.all (fun v => v.isSome), (vs.filterMap id).min? with
    | true, some v =>
      if m.head.baseStep < v then
        i.sendRetire x (i.scalarHomes x l lost)
          { range := noRange, step := v, layer := l.id, kind := 1, scalarNode := lost.node, scalarHome := lost.idx }
      else i
    | _, _ => i

/-- Steps every surviving holder has committed freed at the ledger holders, gradients and scalars, once for each range (R110). -/
def Inst.retireCommitted (m : MapImage) (x q : Nat) (lost : Home) (rows : List RowJob) (i : Inst) : Inst :=
  if i.flt.settled.any (fun s => decide (s.1 = x) && decide (s.2.1 = q)) then i
  else
    let v := (i.committedTo m x q rows).getD m.head.baseStep
    let j : Inst := { i with flt := { i.flt with settled := i.flt.settled ++ [(x, q, v)] } }
    (if m.head.baseStep < v then j.sendRetire x (j.putHomes x q) (gradProbe q v) else j).retireTaken m x q lost

/-- The refresh a decoded tile was waiting for: the one started at the last refresh step not above its version, computed again
from the decoded factors (R195, R197). The base step is no step of an update, so no refresh was started there. -/
def Inst.standinRefresh (m : MapImage) (x q : Nat) (i : Inst) : Inst :=
  match i.unitOf x q with
  | none => i
  | some u =>
    match u.pc with
    | none => i
    | some w =>
      let v0 := i.rangeFrom m x q
      let s0 := v0 / max w.rootEvery 1 * max w.rootEvery 1
      let f := factorBlock w.tr w.tc ((u.factor.map (fun c => ((i.readCopy m c).map (fun r => r.bytes)).getD (List.replicate 4096 0))).flatten)
      let same := fun (r : Refresh) => decide (r.ctx = x) && decide (r.layer = u.layer.id) && decide (r.tile = u.tile)
      if (u.factor.head?).map (fun c => i.copyStep m x c) = some s0 ∧ m.head.baseStep < s0 ∧ v0 < s0 + w.rootLag ∧ !i.opt.refreshes.any same then
        let r : Refresh := { ctx := x, layer := u.layer.id, tile := u.tile, due := s0 + w.rootLag, done := true, held := false,
                             lf := bytesOfWords f.1.flatten, rf := bytesOfWords f.2.1.flatten }
        { i with opt := { i.opt with refreshes := i.opt.refreshes ++ [r] } }
      else i

/-- Rows of a job handled as beyond tolerance: kept as poisoned zeros, and the job is over (R138, R142). -/
def Inst.loseRows (m : MapImage) (j : Job) (which : RowJob → Bool) (cause : Nat) (i : Inst) : Inst :=
  ((j.rows.filter which).foldl (fun i r => i.standinLost m j.ctx r cause) i).finishJob j.id

/-- Entries and vectors complete: the floor test, the retirements owed, and the roll-forward may begin (R110, R138). -/
def Inst.settleRoll (id : Nat) (i : Inst) : Inst :=
  match i.job id with
  | none => i
  | some j =>
    match j.standinOf, i.image j.ctx with
    | some (lost, q), some m =>
      if j.phase ≠ 2 || j.rows.any (fun r => !r.asked.isEmpty) then i
      else
        let x := j.ctx
        let qs := i.jobRanges x q
        let short := match j.floorSeen with
          | some (true, f) => qs.filter (fun r => decide (i.rangeTop m x r j.rows + 1 < f))
          | _ => []
        let behind := match j.floorSeen with
          | some (true, _) => qs.filter (fun r => decide (i.rangeFrom m x r < i.rangeTop m x r j.rows) &&
              j.rows.any (fun w => decide (w.chunk.q = r) && w.target.role == 0))
          | _ => []
        if !short.isEmpty then i.loseRows m j (fun r => short.contains r.chunk.q) 0x23
        else
          let redo := fun (r : RowJob) => if behind.contains r.chunk.q then
              r.again (i.rowGeom x r) (i.ctx x).run.step (i.rangeTop m x r.chunk.q j.rows) else r
          let rows := j.rows.map redo
          if rows.any (fun r => r.done.isNone) then (i.putJob { j with rows := rows, phase := 0, ledger := [] }).advanceJob id
          else
            let k := (qs.foldl (fun i r => i.retireCommitted m x r lost j.rows) i).standinRefresh m x q
            if j.entrySteps.isEmpty then k.finishJob id else k.putJob { j with phase := 3 }
    | _, _ => i

/-- An entry's work at the stand-in, as if the gradient had arrived here (R125, R128). -/
def workOfEntry (x layer : Nat) (e : LedgerEntry) (stage : WorkStage) : Work :=
  { ctx := x, q := e.range, step := e.step, layer := layer, format := e.format, flags := 2 * b2n e.incomplete,
    payload := if stage = .written then [] else e.payload, stage := stage, place := .ingress, clipAt := 0, putsDue := [],
    putSent := true, resend := false, coded := false, emitted := false, retired := false }

/-- A work added in place of one of the same range and step. -/
def Inst.addWork (w : Work) (i : Inst) : Inst :=
  { i with opt := { i.opt with
      work := i.opt.work.filter (fun v => !(decide (v.ctx = w.ctx) && decide (v.q = w.q) && decide (v.step = w.step))) ++ [w],
      layerOrder := if i.opt.layerOrder.contains (w.ctx, w.layer, w.step) then i.opt.layerOrder else i.opt.layerOrder ++ [(w.ctx, w.layer, w.step)] } }

/-- Recorded scalars kept at the stand-in (R108, R415). -/
def Inst.keepScalars (x : Nat) (e : LedgerEntry) (i : Inst) : Inst :=
  let src : Home := { node := e.srcNode, idx := e.srcHome }
  if (i.scalarsFor src x e.layer e.step).isSome then i
  else
    let s : Scalars := { src := src, ctx := x, layer := e.layer, step := e.step, vals := wordsOfBytes e.payload, acks := [], sentPut := true,
                         retired := false }
    { i with opt := { i.opt with scalars := i.opt.scalars ++ [s] } }

/-- What cannot be rolled forward yet is left pending: it waits for what an update waits for (R24, R173, R182). -/
def Inst.leavePending (j : Job) (layer : Nat) (i : Inst) : Inst :=
  let a := (j.ledger.filter (fun e => e.kind = 1)).foldl (fun i e => i.keepScalars j.ctx e) i
  ((sortBy (fun e => e.step) (j.ledger.filter (fun e => e.kind = 0))).foldl (fun i e =>
    match i.workOf j.ctx e.range e.step with
    | some w => if w.stage = .skipped then i.addWork (workOfEntry j.ctx layer e .pending) else i
    | none => i.addWork (workOfEntry j.ctx layer e .pending)) a).finishJob j.id

/-- The entries of a job still to be applied: above where their range stands, and not at work here as a gradient of its own. -/
def Inst.liveEntries (m : MapImage) (j : Job) (i : Inst) : List LedgerEntry :=
  j.ledger.filter (fun e => e.kind == 0 && decide (i.rangeFrom m j.ctx e.range < e.step) &&
    (match i.workOf j.ctx e.range e.step with | some w => w.stage == .skipped | none => true))

/-- The holders of a chunk that have not recorded a step, with FIRST for one that has recorded nothing (R125, R128). -/
def Inst.rollOwes (j : Job) (c : ChunkId) (step : Nat) (i : Inst) : List Owe :=
  let row := j.rows.find? (fun r => r.chunk = c)
  (i.chunkTargets c).filterMap (fun t =>
    let e := row.bind (fun r => ((r.vecs (i.rowGeom j.ctx r)).find? (fun v => decide (v.1 = t.1.pos) && decide (r.target.stripe = t.1.stripe))).map Prod.snd)
    match e with
    | some v => if v.committed && decide (step ≤ extendStep (i.ctx j.ctx).run.step v.version) then none
                else some { frag := t.1, home := t.2.2, first := !v.committed, sent := 0 }
    | none => some { frag := t.1, home := t.2.2, first := false, sent := 0 })

/-- A chunk rolled forward by one step; one that already stands at the step keeps its bytes (R115, R128). -/
def Inst.rollChunk (m : MapImage) (j : Job) (f : Flight) (c : FlightChunk) (i : Inst) : Inst :=
  if m.protOf c.chunk ≠ 2 ∧ f.step ≤ i.copyStep m j.ctx c.chunk then i
  else
    let fresh := match i.flt.copies.find? (fun k => k.chunk = c.chunk) with | some k => k.fresh | none => false
    let k := i.writeStandin m f c
    let owes := (i.rollOwes j c.chunk f.step).map (fun o => if fresh then { o with first := true } else o)
    let n : Inst := { k with cod := { k.cod with backlog := k.cod.backlog.map (fun r =>
      if r.id = i.cod.nextRec ∧ r.chunk = c.chunk then { r with owes := owes } else r) } }
    { n with cod := { n.cod with backlog := n.cod.backlog.filter (fun r => !(decide (r.id = i.cod.nextRec) && r.owes.isEmpty)) } }

/-- The recorded entries of a row that disagree with what was computed for their step (R128). -/
def Inst.rollFails (j : Job) (step : Nat) (r : RowJob) (i : Inst) : List Pos :=
  if r.target.role ≠ 0 then []
  else match i.flt.copies.find? (fun k => k.chunk = r.chunk) with
    | none => []
    | some k => ((r.vecs (i.rowGeom j.ctx r)).filter (fun e =>
        e.2.committed && decide (extendStep (i.ctx j.ctx).run.step e.2.version = step) && decide (k.info.version = step % 2 ^ 32) &&
          e.2.digest != k.info.digest)).map Prod.fst

/-- Whether the vectors that record a chunk at a step agree with the digest of what was computed (R128). -/
def Inst.rollChecks (j : Job) (step : Nat) (i : Inst) : Bool := j.rows.all (fun r => (i.rollFails j step r).isEmpty)

/-- One ledger step applied to a unit (R115, R128, R197). -/
def Inst.rollStep (m : MapImage) (j : Job) (lost : Home) (u : UpdUnit) (step : Nat) (p : Program) (b scal : List Word) (clip : Word)
    (reads : List ChunkRead) (i : Inst) : Inst :=
  let x := j.ctx
  let es := j.ledger.filter (fun e => e.kind == 0 && decide (e.step = step))
  let due := i.dueRefresh x step u
  let inp : UnitIn := { m := m, ctx := x, step := step, prog := p, params := b, scal := scal, clip := clip, unit := u,
                        grads := es.map (fun e => (e.range, e.format, e.payload)), bytes := reads.map (fun r => (r.chunk, r.bytes)),
                        rooted := i.rooted m step u reads,
                        roots := match u.pc, due with
                          | some w, some r => some (rootsOf w (m.head.passes == 9) r)
                          | _, _ => none }
  let out := inp.run
  let f : Flight := { ctx := x, step := step, layer := u.layer.id, ranges := u.ranges, tformat := u.layer.tformat,
                      newChunks := out.chunks.map (fun c => { chunk := c.1, old := inp.get c.1, new := c.2 }), standin := some lost,
                      tile := none }
  let ref := match out.refresh, u.pc with
    | some lr, some w => [({ ctx := x, layer := u.layer.id, tile := u.tile, due := step + w.rootLag, done := true, held := false,
                             lf := bytesOfWords lr.1.flatten, rf := bytesOfWords lr.2.flatten } : Refresh)]
    | _, _ => []
  if !i.backlogRoom x (f.needs m) then i.noteFull x (u.ranges.headD 0)
  else
  let a := f.newChunks.foldl (fun i c => i.rollChunk m j f c) { i with opt := { i.opt with waits := i.opt.waits.filter (fun w => w ≠ (x, 4, u.ranges.headD 0)) } }
  let used := (x, 3, u.layer.paramBlock)
  let a2 : Inst := { a with opt := { a.opt with refreshes := a.opt.refreshes.filter (fun r => some r ≠ due) ++ ref,
                                                waits := if a.opt.waits.contains used then a.opt.waits else a.opt.waits ++ [used] } }
  if a2.rollChecks j step then
    let w := u.ranges.foldl (fun i q => match es.find? (fun e => e.range = q) with
      | some e => (i.addWork (workOfEntry x u.layer.id e .written)).finishRange m f q
      | none => i) a2
    let s := (j.ledger.filter (fun e => e.kind == 1 && decide (e.step = step))).foldl (fun i e => i.keepScalars x e) w
    let d := (s.modRun x (fun r => { r with started := some (max (r.started.getD 0) step), step := max r.step step })).putJob { j with
      ledger := j.ledger.filter (fun e => e.step ≠ step) }
    match d.job j.id with
    | some n => if n.entrySteps.isEmpty then d.finishJob j.id else d
    | none => d
  else
    let bad := j.rows.filter (fun r => !(a2.rollFails j step r).isEmpty)
    let l := bad.foldl (fun i r => (a2.rollFails j step r).foldl (fun i _ =>
      (i.count Cnt.digestFail 1).event 0x1502 (some x) [(24, 4, r.target.stripe), (28, 4, r.target.row)]) i) i
    l.loseRows m j (fun r => bad.contains r) 0x21

/-- The clip scale of a roll-forward: the recorded one, else that of the norm in force. -/
def Inst.rollClip (m : MapImage) (x : Nat) (u : UpdUnit) (step : Nat) (b scal : List Word) (i : Inst) : Option Word :=
  match scal with
  | c :: _ => some c
  | [] => if u.pc.isNone then some 0 else (i.clipUse m x u.layer.id step).map (fun c => (clipValues c (b.getD 31 0)).1)

/-- The next step of a job in phase 3: applied, or left pending where something it needs is not there. -/
def Inst.rollNext (m : MapImage) (j : Job) (lost : Home) (q : Nat) (i : Inst) : Inst :=
  match i.unitOf j.ctx q with
  | none => i.finishJob j.id
  | some u =>
    let live := i.liveEntries m j
    match (live.map (fun e => e.step)).min? with
    | none => i.finishJob j.id
    | some step =>
      let whole := u.ranges.all (fun r => live.any (fun e => decide (e.range = r) && decide (e.step = step)))
      let halted := (i.ctx j.ctx).run.halted.contains u.layer.id
      match i.program u.layer.program, i.paramBlock j.ctx u.layer.paramBlock with
      | some p, some b =>
        let s := j.ledger.find? (fun e => e.kind == 1 && decide (e.step = step))
        let scal := match s with | some e => wordsOfBytes e.payload | none => []
        let reads := i.readChunks m true (Inst.unitReads m j.ctx u)
        match reads.2, i.rollClip m j.ctx u step b scal with
        | some l, some c =>
          if !whole || halted || (p.scalars && s.isNone) || l.any (fun k => k.info.poison) || ((pcWords b).on && !m.tileOk u.layer (pcWords b)) then
            reads.1.leavePending j u.layer.id
          else reads.1.rollStep m j lost u step p b scal c l
        | _, _ => reads.1.leavePending j u.layer.id
      | _, _ => i.leavePending j u.layer.id

/-- The decode of the unit a range belongs to. -/
def Inst.rollJob (x q : Nat) (i : Inst) : Option Job :=
  i.flt.jobs.find? (fun j => decide (j.ctx = x) && (match j.kind with | .standin _ r => r == i.unitHead x q | _ => false))

/-- ROLL_FORWARD (R128). -/
def Inst.rollForward (x q : Nat) (i : Inst) : Inst :=
  if !i.running || (i.ctx x).memb.saturated || (i.ctx x).memb.fenced then i
  else match i.rollJob x q with
    | none => i
    | some j =>
      let k := i.settleRoll j.id
      match k.job j.id, k.image x with
      | some n, some m => match n.standinOf with
        | some (l, r) => (if n.phase = 3 then k.rollNext m n l r else k).pump
        | none => k
      | _, _ => k.pump

/-- The pivots whose vectors disagree in a row (R416). -/
def Inst.rowDisagree (x : Nat) (r : RowJob) (i : Inst) : List Pos :=
  if r.done.isSome || r.failed.isSome || r.target.role ≠ 0 then []
  else match i.geomOf x r.target.stripe with
    | none => []
    | some s => match (i.planOf x s r.pattern).2 with
      | some plan => r.disagreeing s.geom (rowNeed s.geom plan r.target.index)
      | none => []

/-- Vectors of disagreeing pivots read again with VECTOR_ONLY; the rows themselves are then read again with COMMITTED (R416). -/
def Inst.rereadRows (x id : Nat) (kind : JobKind) : List RowJob → Inst → Inst × List RowJob
  | [], i => (i, [])
  | r :: t, i =>
    let ps := (i.rowDisagree x r).filter (fun p => !r.asked.any (fun a => a.1 = p))
    let a := Inst.sendAsks x id kind (ps.map (fun p => { pos := p, version := 0, mode := 2 })) r i
    let b := Inst.rereadRows x id kind t a.1
    (b.1, a.2 :: b.2)

/-- VECTOR_REREAD (R416). -/
def Inst.vectorReread (id : Nat) (i : Inst) : Inst :=
  match i.job id with
  | none => i
  | some j =>
    if !i.running then i
    else
      let a := i.rereadRows j.ctx id j.kind j.rows
      ((a.1.putJob { j with rows := a.2 }).advanceJob id).pump

/-- The disagreeing pivot that records the lower version for a member on which they disagree (R416); of several, the first in the plan's
order (log entry 148). -/
def Inst.lowerPivot (x : Nat) (r : RowJob) (i : Inst) : Option Pos :=
  match i.geomOf x r.target.stripe with
  | none => none
  | some s => match (i.planOf x s r.pattern).2 with
    | none => none
    | some plan =>
      let n := rowNeed s.geom plan r.target.index
      n.agree.findSome? (fun m =>
        let es := r.records s.geom n m
        let key := fun (e : VecEntry) => if e.committed then 1 + extendStep (i.ctx x).run.step e.version else 0
        if es.all (fun e => es.all (fun f => key e.2 = key f.2)) then none
        else (es.find? (fun e => es.all (fun f => key e.2 ≤ key f.2))).map Prod.fst)

/-- VECTOR_AGREE_TIMEOUT (R416): the lower pivot counts as lost for the row. -/
def Inst.vectorTimeout (id : Nat) (i : Inst) : Inst :=
  match i.job id with
  | none => i
  | some j =>
    if !i.running then i
    else
      let rows := j.rows.map (fun r => if (i.rowDisagree j.ctx r).isEmpty then r else match i.lowerPivot j.ctx r with
        | some p => r.without p false
        | none => r)
      ((i.putJob { j with rows := rows }).advanceJob id).pump

/-- OFF_SOURCE_REPLAN (R138): sources that answered INSTANCE_OFF are tried again where no plan does without them. -/
def Inst.offReplan (id : Nat) (i : Inst) : Inst :=
  match i.job id with
  | none => i
  | some j =>
    if !i.running then i
    else
      let fix := fun (r : RowJob) => if r.done.isSome || r.failed.isSome || r.off.isEmpty || (i.rowAsks j.ctx r).2.2 then r else { r with off := [] }
      ((i.putJob { j with rows := j.rows.map fix }).advanceJob id).pump

/-- DECODE_DONE. -/
def execDecodeDone (i : InstId) (job : Nat) (s : State) : Host.Outcome State Fault Refusal := runInst i (Inst.decodeDone job) s

/-- ROLL_FORWARD. -/
def execRollForward (i : InstId) (ctx range : Nat) (s : State) : Host.Outcome State Fault Refusal :=
  runInst i (Inst.rollForward ctx range) s

/-- VECTOR_REREAD. -/
def execVectorReread (i : InstId) (job : Nat) (s : State) : Host.Outcome State Fault Refusal := runInst i (Inst.vectorReread job) s

/-- VECTOR_AGREE_TIMEOUT. -/
def execVectorAgreeTimeout (i : InstId) (job : Nat) (s : State) : Host.Outcome State Fault Refusal :=
  runInst i (Inst.vectorTimeout job) s

/-- OFF_SOURCE_REPLAN. -/
def execOffSourceReplan (i : InstId) (job : Nat) (s : State) : Host.Outcome State Fault Refusal := runInst i (Inst.offReplan job) s

end Sys2Proof.Machine
end

