-- ==== Sys2Proof/Machine/Repair.lean ====
section
/-! DEFINITION. Private repairs: a data chunk from its stripe, a SHADOW chunk from its sub-row, a parity row from its
contributors, and the checks of rows (R243 to R246, R251, R252). -/

namespace Sys2Proof.Machine

/-- The granules a repair of a line rebuilds: the one that holds it, or all for a whole chunk (R243, R250). -/
def repairGranules (line : Nat) : List Nat := if line = 64 then List.range 16 else [line / 4]

/-- Whether a row's plan is local repair alone (R82, R383). -/
def Inst.planIsLocal (x : Nat) (r : RowJob) (i : Inst) : Bool :=
  match i.geomOf x r.target.stripe with
  | some s => match (i.planOf x s r.pattern).2 with
    | some p => p.localFix.contains r.target.index
    | none => false
  | none => false

/-- A repair that no plan can do (R243): cause ECC where no plan was had, DIGEST where one was tried. -/
def Inst.repairLost (j : Job) (r : RowJob) (slot : Nat) (i : Inst) : Inst :=
  (i.loseChunk r.chunk slot (if r.tried.isEmpty then 0x22 else 0x21)).finishJob j.id

/-- Deltas of the backlog above the decoded version XORed in (R243). -/
def Inst.rollBacklog (c : ChunkId) (v0 : Option Nat) (gs : List Nat) (bs : List Bytes) (i : Inst) : List Bytes :=
  let rs := (i.recordsOf c).filter (fun r => match v0 with | some v => v < r.step | none => true)
  (gs.zip bs).map (fun p => rs.foldl (fun b r => xorBytes b (r.granule p.1)) p.2)

/-- The pivot a failed plan is tried again without (R129). -/
def Inst.firstPivot (x : Nat) (r : RowJob) (i : Inst) : Pos :=
  match i.geomOf x r.target.stripe with
  | some s => match (i.planOf x s r.pattern).2 with
    | some p => ((rowNeed s.geom p r.target.index).pivots.head?).getD (.local_ 0)
    | none => .local_ 0
  | none => .local_ 0

/-- A repair whose comparison or check failed: another plan, each tried once (R129, R243). -/
def Inst.repairAgain (j : Job) (r : RowJob) (i : Inst) : Inst :=
  let d := i.digestFailed j.ctx r (i.firstPivot j.ctx r)
  (d.1.putJob { j with rows := [d.2] }).advanceJob j.id

/-- A decode that passed its checks clears the chunk's poison (R141). -/
def Inst.clearPoison (c : ChunkId) (slot : Nat) (i : Inst) : Inst :=
  let r := i.readRec slot
  if r.2.poison then (r.1.writeRec slot { r.2 with attr := r.2.attr &&& 10 }).poisonCleared c r.2.version else r.1

/-- A repair done: counted and logged; another failed line of the chunk is repaired next (R243). -/
def Inst.repairWrite (j : Job) (r : RowJob) (slot line : Nat) (scrub isLocal poison : Bool) (left : List Nat) (i : Inst) : Inst :=
  let b := (i.count Cnt.eccRepaired 1).event 0x1C04 none [(20, 1, line % 64), (21, 1, b2n (!isLocal)), (24, 4, slot)]
  match left with
  | l :: _ => ((b.dropJob j.id).startChunkRepair r.chunk slot l scrub).settleWaiters
  | [] => (if poison then b.setAttr slot 1 else b.clearPoison r.chunk slot).finishJob j.id

/-- The granules of a repair decoded (R243): rolled forward; compared with the lines that read, those that this repair has written left
out; the failed lines written with fresh check bytes; then the chunk's digest checked, as far as every line of it reads. -/
def Inst.repairApply (j : Job) (r : RowJob) (slot line : Nat) (scrub : Bool) (o : RowOut) (i : Inst) : Inst :=
  let gs := repairGranules line
  let v0 := if o.committed then some (extendStep (i.ctx j.ctx).run.step o.version) else none
  let bs := i.rollBacklog r.chunk v0 gs (piecesOf 256 o.bytes)
  let isLocal := i.planIsLocal j.ctx r
  let d := i.readSlot slot
  let failed := failedLines d.2
  let new := (gs.flatMap (fun g => (List.range 4).map (fun k => 4 * g + k))).zip (bs.flatMap (piecesOf 64))
  let ours := fun (l : Nat) => decide (line = 64) || failed.contains l || j.mended.contains l
  let clash := new.any (fun p => !ours p.1 && (match d.2.getD p.1 none with | some b => b != p.2 | none => false))
  if clash then d.1.repairAgain j r
  else
    let mine := new.filter (fun p => ours p.1)
    let a : Inst := { d.1 with mem := mine.foldl (fun m p => m.putLine (64 * slot + p.1) p.2) d.1.mem }
    let left := failed.filter (fun l => !mine.any (fun p => p.1 = l))
    let whole := (List.range 64).flatMap (fun k =>
      ((mine.find? (fun p => p.1 = k)).map Prod.snd).getD ((d.2.getD k none).getD (List.replicate 64 0)))
    let rec_ := a.readRec slot
    if left.isEmpty && crc64 whole != rec_.2.digest then
      rec_.1.repairAgain { j with mended := (j.mended ++ mine.map Prod.fst).eraseDups } r
    else rec_.1.repairWrite j r slot line scrub isLocal o.poison left

/-- A chunk repair whose fragments are in hand (R243). -/
def Inst.chunkRepairStep (j : Job) (r : RowJob) (slot line : Nat) (scrub : Bool) (i : Inst) : Inst :=
  if r.failed.isSome then i.repairLost j r slot
  else
    let d := i.decodeRow j.ctx r (if line = 64 then 4096 else 256)
    match d.2 with
    | none => d.1.advanceJob j.id
    | some o => d.1.repairApply j r slot line scrub { o with bad := none }

/-- A SHADOW chunk's failed line from its sub-row, once the sub-row stands at the chunk's version (R245). -/
def Inst.shadowRepairStep (j : Job) (r : RowJob) (slot line : Nat) (i : Inst) : Inst :=
  if r.failed.isSome then (i.loseChunk r.chunk slot 0x24).finishJob j.id
  else match r.parity r.target.pos with
    | none => i.advanceJob j.id
    | some f =>
      let c := shadowRestore (i.heldRowWidth j.ctx r) f.bytes
      let rec_ := i.readRec slot
      if c.2 ≠ rec_.2.version then (rec_.1.putJob { j with rows := [{ r with got := [] }] }).advanceJob j.id
      else
        let d := rec_.1.readSlot slot
        let ls := failedLines d.2
        let a : Inst := { d.1 with mem := ls.foldl (fun m l => m.putLine (64 * slot + l) (slice (64 * l) 64 c.1)) d.1.mem }
        (((a.count Cnt.eccRepaired 1).setAttr slot 8).event 0x1C04 none [(20, 1, line), (21, 1, 0), (24, 4, slot)]).finishJob j.id

/-- CHUNK_REPAIR_DONE (R243, R245). -/
def Inst.chunkRepairDone (id : Nat) (i : Inst) : Inst :=
  match i.job id with
  | none => i
  | some j =>
    if !i.running || i.arrHolds (.decode id) then i
    else match j.kind, j.rows with
      | .chunkRepair slot line scrub, [r] => (i.chunkRepairStep j r slot line scrub).pump
      | .shadowRepair slot line, [r] => (i.shadowRepairStep j r slot line).pump
      | _, _ => i

/-- The committed granules of a parity row formed from its contributors (R77, R244). -/
def parityFrom (g : Geom) (p : Pos) (own : List VecEntry) (r : RowJob) (n : Nat) : Bytes :=
  (contributors g p.role.1 p.role.2).foldl (fun acc m =>
    let e := vecEntry g p m own
    if e.committed then xorBytes acc (gfScale (parityCoef g p m) (fragBytes n (r.data m e.version))) else acc) (List.replicate n 0)

/-- A row that cannot be rebuilt: DAMAGED, a local row whose check found a mismatch among them; the check of a global row, which had
none yet, ends without a finding (R244, R252). -/
def Inst.rowRepairLost (j : Job) (f : FragId) (check : Bool) (i : Inst) : Inst :=
  let k : Inst := { i with cod := { i.cod with repoison := i.cod.repoison.filter (fun d => d ≠ (j.ctx, f)) } }
  (if check && f.role == 2 then k else k.damageRow j.ctx f).finishJob j.id

/-- The first member whose fetched chunk does not have the digest its vector entry records (R252). -/
def memberBad (g : Geom) (p : Pos) (own : List VecEntry) (r : RowJob) : Option (Nat × BitVec 64 × BitVec 64) :=
  (contributors g p.role.1 p.role.2).findSome? (fun m =>
    let e := vecEntry g p m own
    let d := crc64 (fragBytes 4096 (r.data m e.version))
    if e.committed && d != e.digest then some (m, e.digest, d) else none)

/-- The granules of a row as they are stored for committed granules and its open steps (R100, R244). -/
def Inst.storedGranules (x : Nat) (f : FragId) (gs : List Nat) (committed : Bytes) (i : Inst) : List (Nat × Bytes) :=
  (gs.zip (piecesOf 256 committed)).map (fun p => (p.1, (i.opensAt x f).foldl (fun b o => xorBytes b (o.granule p.1)) p.2))

/-- Lines of a row written from its granules. -/
def MemSt.putRow (slot : Nat) (lines : List Nat) (gs : List (Nat × Bytes)) (m : MemSt) : MemSt :=
  lines.foldl (fun m l => match gs.find? (fun g => g.1 = l / 4) with
    | some g => m.putLine (64 * slot + l) (slice (64 * (l % 4)) 64 g.2)
    | none => m) m

/-- COLONY_MISMATCH counted and logged (R252). -/
def Inst.colonyMismatch (x : Nat) (f : FragId) (i : Inst) : Inst :=
  (i.count Cnt.colonyMismatch 1).event 0x1D04 (some x) [(24, 4, f.stripe), (28, 4, f.row)]

/-- The outcome of a check whose contributors are in hand: a bad member logged, or the row rewritten (R252). A global row is
compared here; a local one was compared by its digests. A line that cannot be read is first repaired from the contributors (R244). -/
def Inst.checkRow (j : Job) (f : FragId) (h : HeldRow) (g : Geom) (own : List VecEntry) (r : RowJob) (i : Inst) : Inst :=
  let x := j.ctx
  let stored := i.storedGranules x f (List.range 16) (parityFrom g f.pos own r 4096)
  let c := i.rowGranules h (List.range 16)
  let bad := c.1.mem.badLines h.slot (List.range 16)
  let d : Inst × List (Option Bytes) := if bad.isEmpty then c else
    (({ c.1 with mem := c.1.mem.putRow h.slot bad stored } : Inst).count Cnt.eccRepaired 1).rowGranules h (List.range 16)
  let same := (stored.zip d.2).all (fun p => match p.2 with | some b => b == p.1.2 | none => true)
  let k := if f.role = 2 then (if same then d.1.count Cnt.colonyChecked 1 else (d.1.count Cnt.colonyChecked 1).colonyMismatch x f) else d.1
  if f.role = 2 ∧ same then k.finishJob j.id
  else match memberBad g f.pos own r with
    | some b =>
      (k.events [(0x1D05, 0x1D, [(20, 1, b.1), (24, 4, f.stripe), (28, 4, f.row)]), (0x1D06, 0x1D, [(20, 8, b.2.1.toNat)]),
        (0x1D07, 0x1D, [(20, 8, b.2.2.toNat)])] (some x) none).finishJob j.id
    | none =>
      (({ k with mem := k.mem.putRow h.slot (List.range 64) stored } : Inst).digestStored h.slot |>.count Cnt.colonyRepair 1).finishJob j.id

/-- A parity row whose contributors are in hand (R244, R252). -/
def Inst.rowRepairApply (j : Job) (f : FragId) (lines : List Nat) (check : Bool) (r : RowJob) (h : HeldRow) (g : Geom) (i : Inst) : Inst :=
  let v := i.readVec h.place
  if check then v.1.checkRow j f h g v.2 r
  else
    let gs := if r.full then List.range 16 else (bitsSet 16 (j.kind.mask false))
    let stored := v.1.storedGranules j.ctx f gs (parityFrom g f.pos v.2 r (256 * gs.length))
    let k : Inst := { v.1 with mem := v.1.mem.putRow h.slot lines stored,
                               cod := { v.1.cod with repoison := v.1.cod.repoison.filter (fun d => d ≠ (j.ctx, f)) } }
    ((if r.full then k.digestStored h.slot else k).count Cnt.eccRepaired 1).finishJob j.id

/-- ROW_REPAIR_DONE (R244, R252). -/
def Inst.rowRepairDone (id : Nat) (i : Inst) : Inst :=
  match i.job id with
  | none => i
  | some j =>
    if !i.running || i.arrHolds (.decode id) then i
    else match j.kind, j.rows with
      | .rowRepair f lines check, [r] =>
        (if r.failed.isSome then i.rowRepairLost j f check
        else if !i.rowReady j.ctx r then i.advanceJob id
        else match i.heldRow j.ctx f, i.geomOf j.ctx f.stripe with
          | some h, some s => i.rowRepairApply j f lines check r h s.geom
          | _, _ => i.finishJob id).pump
      | _, _ => i

/-- ROW_REPAIR_DONE, and the COLONY_CHECKs that waited for it. -/
def Inst.rowRepairEnd (id : Nat) (i : Inst) : Inst := (i.rowRepairDone id).settleChecks

/-- The digest comparison of a local parity row at committed state (R251); on a mismatch its rebuild begins (R252). A row with a line
that cannot be read is repaired instead (R240). -/
def Inst.colonyRow (scrub : Bool) (x : Nat) (f : FragId) (i : Inst) : Inst :=
  match i.heldRow x f with
  | none => i
  | some h =>
    if i.rowDamaged x f || (i.buildingAt x f).isSome || i.rowRebuilding x f then i
    else
      let d := i.rowGranules h (List.range 16)
      if d.2.any (fun g => g.isNone) then d.1.startRowRepair x f (d.1.mem.badLines h.slot (List.range 16)) false
      else
        let v := d.1.readVecBy scrub h.place
        let row := (d.2.mapIdx (fun g b => (v.1.opensAt x f).foldl (fun b o => xorBytes b (o.granule g)) (b.getD []))).flatten
        let want := v.2.foldl (fun a e => if e.committed then a ^^^ e.digest else a) (0 : BitVec 64)
        let k := v.1.count Cnt.colonyChecked 1
        if crc64 row = want then k else (k.colonyMismatch x f).startRowRepair x f [] true

/-- CHUNK_REPAIR_DONE. -/
def execChunkRepairDone (i : InstId) (job : Nat) (s : State) : Host.Outcome State Fault Refusal := runInst i (Inst.chunkRepairDone job) s

/-- ROW_REPAIR_DONE. -/
def execRowRepairDone (i : InstId) (job : Nat) (s : State) : Host.Outcome State Fault Refusal := runInst i (Inst.rowRepairEnd job) s

end Sys2Proof.Machine
end

