-- ==== Sys2Proof/Machine/Memb.lean ====
section
/-! DEFINITION. Caravans, pushes, cutover, warnings and the end of a transition (R143 to R160). -/

namespace Sys2Proof.Machine

/-- The whole contents of a chunk at its server, by version. -/
inductive Whole where
  | waits
  | unwritten
  | bytes (version : Nat) (digest : BitVec 64) (attr : Nat) (b : Bytes)
  deriving DecidableEq, Repr

/-- What a fragment read of all granules gives as the contents of a chunk. -/
def wholeOf (r : FragRes) : Whole :=
  match r with
  | .served a => .bytes a.version (crc64 a.granules.flatten) a.attr a.granules.flatten
  | _ => .waits

/-- A chunk read whole at a version, or as it is (R103, R125, R150, R152). -/
def Inst.wholeChunk (c : ChunkId) (standin : Option Home) (at_ : Option Nat) (i : Inst) : Inst × Whole :=
  match i.image c.ctx with
  | none => (i, .waits)
  | some m =>
    match standin with
    | none =>
      match i.chunkSlot c with
      | none => (i, .waits)
      | some s =>
        if !i.isValid s then (i, .unwritten)
        else
          let r := i.readRec s
          let d := r.1.serveData c s 0xFFFF (at_.getD r.2.version)
          match d.2 with
          | .repairChunk slot line => (d.1.chunkFailed c slot line false, .waits)
          | f => (d.1, wholeOf f)
    | some l =>
      match i.copyOf c with
      | some k => if k.fresh && !k.info.poison then (i, .unwritten) else (i, wholeOf (i.serveCopy k 0xFFFF (at_.getD k.info.version)))
      | none =>
        if m.protOf c = 2 then (i, .bytes (i.standinVersion m c.ctx c.q) 0 0 (List.replicate 4096 0))
        else (i.startStandin c.ctx ((i.chunkRanges m c).headD c.q) l, .waits)

/-- The put of a chunk's contents towards a position (R149): granules that are all zero are omitted from a FULL put. -/
def putBody (f : FragId) (pos : Nat) (w : Whole) (granules : List (Nat × Bytes)) (poisoned full : Bool) (prev : Nat) :
    RebuildBody × List Bytes :=
  let gs := if full && !poisoned then granules.filter (fun g => g.2.any (· ≠ 0)) else granules
  let mask := gs.foldl (fun a g => a + 2 ^ g.1) 0
  match w with
  | .bytes v d a _ =>
    ({ stripe := f.stripe, row := f.row, srcPos := pos, dstRole := f.role, dstIndex := if f.role = 0 then 0 else f.index,
       count := gs.length, mask := mask, version := v, prev := if full then 0 else prev, full := full, probe := false,
       zero := false, reconstructed := a.testBit 1, shadowApprox := a.testBit 3, digest := d }, gs.map Prod.snd)
  | _ =>
    ({ stripe := f.stripe, row := f.row, srcPos := pos, dstRole := f.role, dstIndex := if f.role = 0 then 0 else f.index,
       count := 0, mask := 0, version := 0, prev := 0, full := false, probe := false, zero := true, reconstructed := false,
       shadowApprox := false, digest := 0 }, [])

/-- The poison flags of an operation's granules. -/
def poisonBits (a n : Nat) : Nat := if a.testBit 0 then 2 ^ n - 1 else 0

/-- The version a push carries: PREV_VERSION of the oldest backlog record, or the present one; `none` within where that record
is a chunk's first (R152). -/
def Inst.pushVersion (c : ChunkId) (i : Inst) : Option (Option Nat) :=
  match (i.recordsOf c).head? with
  | some r => if r.owes.any (fun o => o.first) then none else some (some r.prev)
  | none => some none

/-- The contents a push carries, by role (R149, R152). -/
def Inst.pushPut (m : MapImage) (p : Push) (w : Whole) : RebuildBody × List Bytes :=
  let f := p.frag
  match w with
  | .bytes v _ _ b =>
    let gs := if f.role = 3 then
        let wd := match m.cls p.chunk.cls with | some c => formatWidth c.format | none => 4
        (piecesOf 256 (shadowEncode wd v b)).mapIdx (fun n g => (n, g))
      else (piecesOf 256 b).mapIdx (fun n g => (n, if f.role = 2 then gfScale (coef f.index p.pos) g else g))
    let r := putBody f p.pos w gs (match w with | .bytes _ _ a _ => a.testBit 0 | _ => false) true 0
    ({ r.1 with reconstructed := r.1.reconstructed || p.recon }, r.2)
  | _ => putBody f p.pos w [] false true 0

/-- A push that has been acknowledged (R152, R157). -/
def Inst.pushAcked (id : Nat) (i : Inst) : Inst :=
  ({ i with memb := { i.memb with pushes := i.memb.pushes.filter (fun p => p.id ≠ id) } }).checkAllDone

/-- One push of R152 sent; a holder that is this instance applies it at once. -/
def Inst.sendPush (p : Push) (i : Inst) : Inst :=
  match i.image p.chunk.ctx with
  | none => i
  | some m =>
    let x := p.chunk.ctx
    let standin := match i.servesChunk m p.chunk with | some (some l) => some l | _ => none
    let v := i.pushVersion p.chunk
    let r := match v with
      | none => (i, Whole.unwritten)
      | some at_ => i.wholeChunk p.chunk standin at_
    match r.2 with
    | .waits => r.1
    | w =>
      let b := Inst.pushPut m p w
      let poison := match w with | .bytes _ _ a _ => poisonBits a b.2.length | _ => 0
      if p.home ≠ i.self && !r.1.shareRoom 4 4096 then r.1.poolFail 4
      else if p.home = i.self then
        let h := r.1.holderRebuild { r.1.ownHdr x with poison := poison } b.1 b.2
        if h.2.status = St.ok then h.1.pushAcked p.id else h.1
      else
        let j := r.1.send p.home x 3 (.push p.id) (.rebuildPut b.1 b.2) poison
        { j with memb := { j.memb with pushes := j.memb.pushes.map (fun q => if q.id = p.id then { q with sent := true } else q) } }

/-- A caravan changed. -/
def Inst.modMoving (x q : Nat) (f : Moving → Moving) (i : Inst) : Inst :=
  { i with memb := { i.memb with moving := i.memb.moving.map (fun m => if m.ctx = x ∧ m.q = q then f m else m) } }

/-- The fragment a chunk is at its destination; a NONE chunk is named by its slot there (R63; log entry 37). -/
def MapImage.destFrag (m : MapImage) (c : ChunkId) : Option FragId :=
  match m.fragOf c.cls c.q c.k with
  | some f => some f
  | none => (m.runOf c.cls c.q).map (fun r =>
      { stripe := 0xFFFFFFFF, row := r.slotBase + (c.q - r.firstRange) * m.perRange c.cls + c.k, role := 0, index := c.cls })

/-- Whether what a range holds has passed its release points (R20, R153). -/
def Inst.rangeReleased (m : MapImage) (x q : Nat) (i : Inst) : Bool :=
  (i.opt.work.filter (fun w => decide (w.ctx = x) && decide (w.q = q) && w.stage == .written)).all (fun w =>
    w.putsDue.isEmpty && i.scalarsAcked (i.workHome x q) x (((m.layerOf q).map (fun l => l.id)).getD 0) w.step)

/-- A chunk sent FULL, ZERO or as a PROBE (R149, R153): a rejoining destination is sent a PROBE for every chunk (R164), and a chunk
it needs goes FULL, all its granules omitted where the source's slot is unwritten (R155). A caravan that finds no buffer waits (R317). -/
def Inst.sendFull (m : MapImage) (mv : Moving) (c : ChunkId) (i : Inst) : Inst :=
  if !i.shareRoom 4 4096 then i.poolFail 4 else
  let w := i.wholeChunk c mv.standin none
  match w.2, m.destFrag c with
  | .waits, _ => w.1
  | _, none => w.1
  | v, some f =>
    let gs := match v with | .bytes _ _ _ b => (piecesOf 256 b).mapIdx (fun n g => (n, g)) | _ => []
    let attr := match v with | .bytes _ _ a _ => a | _ => 0
    let p := putBody f f.index v gs (attr.testBit 0) true 0
    let need := mv.full.contains c
    let b := if p.1.zero && (need || mv.probe) then ({ p.1 with zero := false, full := true }, p.2) else p
    let probe := mv.probe && !need
    let body := if probe then ({ b.1 with count := 0, mask := 0, full := false, probe := true }, []) else b
    let j := w.1.send mv.dst mv.ctx 3 (.put c) (.rebuildPut body.1 body.2) (poisonBits attr body.2.length)
    j.modMoving mv.ctx mv.q (fun n => { n with sent := n.sent ++ [c], unacked := n.unacked + 1,
                                               owed := n.owed.filter (fun o => o.1 ≠ c), full := n.full.filter (· ≠ c) })

/-- A step's granules of a chunk already sent (R153). -/
def Inst.sendPartial (m : MapImage) (mv : Moving) (o : ChunkId × Nat × Nat × Nat) (i : Inst) : Inst :=
  let c := o.1
  if !i.shareRoom 4 4096 then i.poolFail 4 else
  let w := i.wholeChunk c mv.standin (if m.protOf c = 2 then none else some o.2.2.1)
  match w.2, m.destFrag c with
  | .bytes _ _ a b, some f =>
    let gs := ((piecesOf 256 b).mapIdx (fun n g => (n, g))).filter (fun g => o.2.1.testBit g.1)
    let p := putBody f f.index w.2 gs (a.testBit 0) false o.2.2.2
    let body : RebuildBody := { p.1 with version := o.2.2.1 }
    (w.1.send mv.dst mv.ctx 3 (.put c) (.rebuildPut body p.2) (poisonBits a p.2.length)).modMoving mv.ctx mv.q (fun n =>
      { n with unacked := n.unacked + 1, owed := n.owed.filter (fun q => q ≠ o) })
  | _, _ => w.1

/-- Whether a caravan of a context may send now (R123, R148). -/
def Inst.caravanMay (x : Nat) (i : Inst) : Bool :=
  !i.memb.stopped.contains x && !(i.ctx x).memb.fenced && !(i.ctx x).memb.offline && !(i.ctx x).memb.saturated && (i.ctx x).map.slot ≠ 2

/-- What a range's caravan has to send. -/
def Inst.caravanWork (m : MapImage) (mv : Moving) (i : Inst) : Bool :=
  i.caravanMay mv.ctx && !isLost (i.ctx mv.ctx).memb.lost mv.dst && !mv.faulted && !mv.cutSent && i.rangeReleased m mv.ctx mv.q &&
    ((m.chunksOf mv.ctx mv.q).any (fun c => !mv.sent.contains c) || !mv.owed.isEmpty)

/-- The puts of one range. -/
def Inst.caravanRange (m : MapImage) (mv : Moving) (i : Inst) : Inst :=
  let j := ((m.chunksOf mv.ctx mv.q).filter (fun c => !mv.sent.contains c)).foldl (fun i c => i.sendFull m mv c) i
  mv.owed.foldl (fun i o => if mv.sent.contains o.1 then i.sendPartial m mv o else i) j

/-- The first range to be moved that a caravan may go out for. -/
def Inst.nextMoving (i : Inst) : Option Moving :=
  i.memb.moving.find? (fun mv => match i.image mv.ctx with | some m => i.caravanWork m mv | none => false)

/-- CARAVAN_SEND (R148, R152, R153): a push that is owed, else the puts of one range. -/
def Inst.caravanSend (i : Inst) : Inst :=
  if !i.running then i
  else match i.memb.pushes.find? (fun p => !p.sent && i.caravanMay p.chunk.ctx && !isLost (i.ctx p.chunk.ctx).memb.lost p.home) with
    | some p => (i.sendPush p).pump
    | none =>
      match i.nextMoving with
      | some mv => match i.image mv.ctx with
        | some m => (i.caravanRange m mv).pump
        | none => i
      | none => i

/-- Whether a range may cut over (R154). -/
def Inst.cutReady (m : MapImage) (mv : Moving) (i : Inst) : Bool :=
  i.caravanMay mv.ctx && !isLost (i.ctx mv.ctx).memb.lost mv.dst && !mv.faulted && !mv.cutSent && decide (mv.unacked = 0) && mv.owed.isEmpty &&
    (m.chunksOf mv.ctx mv.q).all (fun c => mv.sent.contains c && decide (i.lagOf c = 0)) &&
    i.opt.work.all (fun w => !(decide (w.ctx = mv.ctx) && decide (w.q = mv.q) && (w.stage == .pending || w.stage == .updating))) &&
    !i.decoding mv.ctx mv.q

/-- The records of a range at its source; none while a copy must be decoded again (R154). -/
def Inst.cutRecs (m : MapImage) (mv : Moving) (i : Inst) : Inst × Option (List ChunkRec) :=
  (m.chunksOf mv.ctx mv.q).foldl (fun (a : Inst × Option (List ChunkRec)) c =>
    let w := a.1.wholeChunk c mv.standin none
    match a.2, w.2 with
    | some l, .bytes v d at_ _ => (w.1, some (l ++ [{ version := v, digest := d, attr := at_ }]))
    | some l, .unwritten => (w.1, some (l ++ [ChunkRec.zero]))
    | _, _ => (w.1, none)) (i, some [])

/-- CUTOVER_SEND (R154). -/
def Inst.cutoverSend (x q : Nat) (i : Inst) : Inst :=
  match i.movingOf x q, i.image x with
  | some mv, some m =>
    if !i.running || !i.cutReady m mv then i
    else
      let r := i.cutRecs m mv
      match r.2 with
      | none => r.1.pump
      | some rs =>
        let v := ((rs.head?).map (fun c => c.version)).getD 0
        let b : CutoverBody := { range := q, step := if v = 0 then 0 else extendStep (i.ctx x).run.step v, rangeDigest := rangeDigest rs,
                                 reconstructed := mv.standin.isSome || rs.any (fun c => c.recon) }
        ((r.1.send mv.dst x 3 (.cutover x q) (.cutover b) 0).modMoving x q (fun n => { n with cutSent := true })).pump
  | _, _ => i

/-- Gradients still held for a range that has cut over go to its new home (R156). -/
def Inst.forwardHeld (x q : Nat) (dst : Home) (i : Inst) : Inst :=
  let ws := sortBy (fun w => w.step) (i.opt.work.filter (fun w => decide (w.ctx = x) && decide (w.q = q) && w.stage == .pending))
  let j : Inst := { i with opt := { i.opt with work := i.opt.work.filter (fun w => !(decide (w.ctx = x) && decide (w.q = q) && w.stage == .pending)) } }
  ws.foldl (fun i w => i.send dst x 3 .forward (.gradForward
    (ledgerEntryOf i.self 0 q w.step w.layer w.format (w.flags.testBit 1) w.payload)) (i.stagedFlags (.gradient x q w.step))) j

/-- CUTOVER acknowledged (R155). -/
def Inst.cutDone (x q : Nat) (i : Inst) : Inst :=
  match i.movingOf x q, i.image x with
  | some mv, some m =>
    let layer := ((m.layerOf q).map (fun l => l.id)).getD 0
    let a := i.emitOut (.drop x q 1 layer)
    let b := if mv.standin.isSome then { a with flt := { a.flt with copies := a.flt.copies.filter (fun c => !(decide (c.chunk.ctx = x) && decide (c.chunk.q = q))) } }
      else mv.slots.foldl (fun i s => i.clearSlots s.2 1) a
    let c : Inst := { b with memb := { b.memb with moving := b.memb.moving.filter (fun n => !(decide (n.ctx = x) && decide (n.q = q))),
                                                   departed := b.memb.departed ++ [(x, q, mv.dst)] } }
    ((c.forwardHeld x q mv.dst).endServed x).checkDone x
  | _, _ => i

/-- CUTOVER refused (R155): service goes on, every chunk is sent FULL; after three attempts the range stays. -/
def Inst.cutRefused (x q : Nat) (mismatch : Bool) (i : Inst) : Inst :=
  match i.movingOf x q, i.image x with
  | some mv, some m =>
    if !mismatch then i.modMoving x q (fun n => { n with cutSent := false })
    else
      let j := i.modMoving x q (fun n => { n with cutSent := false, sent := [], owed := [], full := m.chunksOf x q,
                                                  attempts := n.attempts + 1, faulted := decide (2 ≤ n.attempts) })
      if 2 ≤ mv.attempts then (j.count Cnt.caravanFault 1).event 0x1603 (some x) [(24, 6, q)] else j
  | _, _ => i

/-- A put's answer (R150, R153): a chunk the destination needs is sent FULL. -/
def Inst.putAnswer (c : ChunkId) (full : Bool) (i : Inst) : Inst :=
  i.modMoving c.ctx c.q (fun n =>
    let m : Moving := { n with unacked := n.unacked - 1 }
    if full then { m with sent := m.sent.filter (· ≠ c), full := if m.full.contains c then m.full else m.full ++ [c],
                          owed := m.owed.filter (fun o => o.1 ≠ c) } else m)

/-- A rate warning judged (R160): it rises at its threshold and falls below three quarters of it. -/
def warnLevel (was : Bool) (measure threshold : Nat) : Bool :=
  if threshold = 0 then false else if was then decide (threshold * 3 ≤ measure * 4) else decide (threshold ≤ measure)

/-- Warning bits replaced, each rise logged (R160). -/
def Inst.setWarn (k : Nat) (on : Bool) (measure : Nat) (i : Inst) : Inst :=
  let was := i.memb.warn.testBit k
  let j : Inst := { i with memb := { i.memb with warn := if on == was then i.memb.warn else i.memb.warn ^^^ 2 ^ k } }
  if on && !was then j.event 0x1601 none [(20, 1, k), (24, 4, measure)] else j

/-- WARNING_EVALUATION (R160, R353): the sliding hour of corrections and of link notices. -/
def Inst.warnings (i : Inst) : Inst :=
  let win := i.memb.eccWindow.take 60
  let ecc := win.sum
  let notes := i.hb.linkNotices.filter (fun t => decide (i.view.time < t + 3600 * aonHz))
  let l := i.telem.life
  let mins := setAt 4 (max (l.mins.getD 4 0) notes.length) (setAt 3 (max (l.mins.getD 3 0) ecc) l.mins)
  let j : Inst := { i with memb := { i.memb with eccMeasure := ecc, linkMeasure := notes.length, eccWindow := 0 :: i.memb.eccWindow.take 59 },
                           hb := { i.hb with linkNotices := notes },
                           telem := { i.telem with life := { l with mins := mins } } }
  (j.setWarn 0 (warnLevel (j.memb.warn.testBit 0) ecc (j.reg 0x16 0x108 0x2710)) ecc).setWarn 1
    (warnLevel (j.memb.warn.testBit 1) notes.length (j.reg 0x16 0x10C 0x40 % 2 ^ 16)) notes.length

/-- CARAVAN_SEND. -/
def execCaravanSend (i : InstId) (s : State) : Host.Outcome State Fault Refusal := runInst i Inst.caravanSend s

/-- CUTOVER_SEND. -/
def execCutoverSend (i : InstId) (ctx range : Nat) (s : State) : Host.Outcome State Fault Refusal :=
  runInst i (Inst.cutoverSend ctx range) s

/-- WARNING_EVALUATION. -/
def execWarningEvaluation (i : InstId) (s : State) : Host.Outcome State Fault Refusal := runInst i Inst.warnings s

end Sys2Proof.Machine
end

