-- ==== Sys2Proof/Machine/Response.lean ====
section
/-! DEFINITION. Answers, timeouts, parked channels, heartbeats and the endpoint's notices (R117, R118, R122, R260 to R265, R271
to R279). -/

namespace Sys2Proof.Machine

/-- An operation put back among the waiting ones in its owner's order (R272), behind a lost set that goes first (R264). -/
def Inst.requeue (o : OutOp) (i : Inst) : Inst :=
  let first := fun (p : OutOp) => decide (p.id < o.id) || p.owner == OpOwner.degraded
  { i with fab := { i.fab with outq := i.fab.outq.takeWhile first ++ [{ o with held := false }] ++ i.fab.outq.dropWhile first } }

/-- An operation to be sent again, at once or after its RETRY_AFTER (R264, R265). -/
def Inst.sendAgain (o : OutOp) (b : RespBody) (i : Inst) : Inst :=
  if b.retryAfter = 0 then i.requeue o else { i with fab := { i.fab with retry := i.fab.retry ++ [o] } }

/-- What an answer to an offer does (R7, R261, R262). -/
def Inst.offerAnswer (o : OutOp) (b : RespBody) (i : Inst) : Inst :=
  if b.status = St.ok then
    (i.modMemb o.ctx (fun m => { m with matchOut := if m.matchOut.contains o.dst then m.matchOut else m.matchOut ++ [o.dst] })).noteMatched o.ctx o.dst
  else
    let j := match b.ext with
      | .handshake h => if b.status = St.mismatch then
          (if h.contract = (i.handshakeBody o.ctx false 0).contract then i else i.unmatch o.ctx o.dst).event 0x1105 (some o.ctx)
            [(20, 2, o.dst.node), (22, 1, o.dst.idx), (24, 4, h.imageVersion), (28, 4, h.contract)] else i
      | _ => i
    j.sendAgain o b

/-- A fragment's answer (R260): taken into its row; a source that cannot supply it counts lost for the row. -/
def Inst.fragAnswer (job : Nat) (p : Pos) (o : OutOp) (b : RespBody) (poison : Nat) (i : Inst) : Inst :=
  match o.body with
  | .fragRead f =>
    if b.status = St.ok then
      match b.ext, i.job job with
      | .frag v d a mask gs vec, some j =>
        let ans : FragAns := { version := v, digest := d, attr := a, mask := mask, granules := gs, poison := poison, vector := vec }
        let step := fun (acc : Inst × List RowJob) (r : RowJob) =>
          if r.target.stripe = f.stripe ∧ r.target.row = f.row ∧ r.asked.any (fun k => decide (k.1 = p) && decide (k.2 = f.version)) then
            let t : RowJob := { r with asked := r.asked.filter (fun k => !(decide (k.1 = p) && decide (k.2 = f.version))) }
            let n := acc.1.acceptFrag j.ctx (fragOfAns p f.version ans) t
            (n.1, acc.2 ++ [n.2])
          else (acc.1, acc.2 ++ [r])
        let r := j.rows.foldl step (i, [])
        (r.1.putJob { j with rows := r.2 }).advanceJob job
      | _, _ => i
    else if b.status = St.retry ∨ b.status = St.notReady ∨ b.status = St.stale ∨ b.status = St.ctxMismatch then i.sendAgain o b
    else
      let j := if b.status = St.notHeld then
          i.event 0x1505 (some o.ctx) [(20, 2, o.dst.node), (22, 1, o.dst.idx), (24, 4, f.stripe), (28, 4, f.row)] else i
      j.sourceGone job p o.body (decide (b.status = St.instOff))
  | _ => i

/-- A LEDGER_READ's answer during a roll-forward (R128, R138, R190). -/
def Inst.ledgerAnswer (job : Nat) (o : OutOp) (b : RespBody) (i : Inst) : Inst :=
  match o.body with
  | .ledgerRead r =>
    if b.status = St.ok ∨ b.status = St.absent then
      let j := match b.ext, i.job job with
        | .floor set f e, some k =>
          let a := i.putJob { k with floorSeen := if set then some (true, f) else k.floorSeen }
          (match e with | some n => if b.status = St.ok then a.rollEntry job n else a | none => a)
        | _, _ => i
      j.probeNext job (some r)
    else i.sendAgain o b
  | _ => i

/-- A dropped gradient fetched again (R190): back in ingress, or its step skipped for the range. -/
def Inst.refetchAnswer (x q step : Nat) (o : OutOp) (b : RespBody) (i : Inst) : Inst :=
  if b.status = St.ok ∨ b.status = St.absent then
    i.refetched x q step (match b.status, b.ext with | 0, .floor _ _ e => e | _, _ => none)
  else i.sendAgain o b

/-- The owner's action on an answer other than INSTANCE_OFF, MALFORMED and CTX_MISMATCH (R264). -/
def Inst.ownerAnswer (o : OutOp) (b : RespBody) (poison : Nat) (i : Inst) : Inst :=
  let ok := decide (b.status = St.ok)
  match o.owner with
  | .coding id f isCommit => i.codingAnswer id f isCommit b o
  | .grad x q step => if ok then (i.gradAck x q step o.dst)
    else if (match i.workOf x q step with | some w => w.putsDue.contains o.dst | none => false) then
      (if b.status = St.stale then i.modWork x q step (fun w => { w with resend := true }) else i).sendAgain o b
    else i
  | .scalars src x l step =>
    if ok then i.modScalars src x l step (fun s => { s with acks := s.acks.filter (· ≠ o.dst) })
    else if (match i.scalarsFor src x l step with | some s => s.acks.contains o.dst | none => false) then i.sendAgain o b else i
  | .retire => if ok then i else i.sendAgain o b
  | .refetch x q step => i.refetchAnswer x q step o b
  | .frag job p => i.fragAnswer job p o b poison
  | .ledger job => i.ledgerAnswer job o b
  | .push id => if ok then i.pushAcked id else if i.memb.pushes.any (fun p => p.id == id) then i.sendAgain o b else i
  | .put c =>
    if (match i.movingOf c.ctx c.q with | some mv => decide (mv.dst ≠ o.dst) | none => true) then i
    else if ok then i.putAnswer c (decide (b.info = 4))
    else if b.status = St.retry ∧ b.reason = 4 then i.putAnswer c true
    else i.sendAgain o b
  | .cutover x q => if ok then i.cutDone x q else i.cutRefused x q (decide (b.status = St.retry) && decide (b.reason = 11))
  | .forward => if ok then i else i.sendAgain o b
  | .degraded => if ok || decide (b.status = St.stale) then i else i.sendAgain o b
  | .offer => i.offerAnswer o b

/-- A malformed operation is never sent again (R264): what waited for it ends. -/
def Inst.neverAgain (o : OutOp) (b : RespBody) (i : Inst) : Inst :=
  let j := (i.count Cnt.fabricMalformed 1).event 0x1704 (some o.ctx) [(20, 1, o.body.code), (21, 2, o.dst.node)]
  match o.owner with
  | .coding id f c => j.codingAnswer id f c b o
  | .frag job p => j.sourceGone job p o.body false
  | .ledger job => (match j.job job with | some k => j.putJob { k with phase := max k.phase 2 } | none => j)
  | _ => j

/-- INSTANCE_OFF (R273): the channel waits; a decode counts the source absent (R138), and other operations go back to their
owners. -/
def Inst.instOffAnswer (o : OutOp) (b : RespBody) (i : Inst) : Inst :=
  let j := i.modChan o.dst (fun c => { c with offWait := true, parked := false })
  match o.owner with
  | .coding id f c => j.codingAnswer id f c b o
  | .frag job p => j.sourceGone job p o.body true
  | _ => j.requeue o

/-- An offer to be made after RETRY_AFTER (R264, R265). -/
def Inst.offerLater (x : Nat) (h : Home) (i : Inst) : Inst :=
  let o : OutOp := { id := i.fab.nextId, dst := h, ctx := x, body := .handshake (i.handshakeBody x false 0), owner := .offer,
                     share := 4, poison := 0, held := false }
  { i with fab := { i.fab with retry := i.fab.retry ++ [o], nextId := i.fab.nextId + 1 } }

/-- The lost set sent to a home before anything queued (R122, R264). -/
def Inst.sendFirst (h : Home) (x : Nat) (i : Inst) : Inst :=
  let o : OutOp := { id := i.fab.nextId, dst := h, ctx := x, body := .degraded (i.degradedBody x), owner := .degraded, share := 0,
                     poison := 0, held := false }
  { i with fab := { i.fab with outq := o :: i.fab.outq, nextId := i.fab.nextId + 1 } }

/-- The sender's action by status (R122, R264): a lost set attached is merged, one asked for is sent first. -/
def Inst.answered (o : OutOp) (b : RespBody) (poison : Nat) (i : Inst) : Inst :=
  let x := o.ctx
  if b.status = St.instOff then i.instOffAnswer o b
  else if b.status = St.malformed then i.neverAgain o b
  else if b.status = St.ctxMismatch then
    (((i.unmatch x o.dst).event 0x1105
      (some x) [(20, 2, o.dst.node), (22, 1, o.dst.idx)]).offerLater x o.dst).ownerAnswer o b poison
  else if b.status = St.stale then
    let j := match b.ext with
      | .lostSet d => if d.imageVersion = (i.ctx x).imageVersion then i.merge x d o.dst else i
      | _ => i
    if b.reason = 1 then j.fence x 0x06
    else if (j.ctx x).memb.fenced then j
    else j.ownerAnswer o b poison
  else if b.status = St.notReady ∧ b.reason = 3 then
    (if (i.ctx x).memb.fenced then i else i.sendFirst o.dst x).ownerAnswer o b poison
  else i.ownerAnswer o b poison

/-- The completion-table entry a TAG names, if it is live (R273). -/
def Inst.liveEntry (tag : Nat) (i : Inst) : Option CplEntry :=
  match i.fab.cpl.find (tag % 2 ^ 13) with
  | some e => if e.gen = tag / 2 ^ 13 then some e else none
  | none => none

/-- RESPONSE (R264, R273, R274); the operation of a context that has left LIVE has no owner any more (R266). -/
def Inst.response (h : FabHdr) (b : RespBody) (i : Inst) : Inst :=
  match i.pw.state with
  | .off | .restoring | .starting | .resetting | .faulted => i.count Cnt.fabricLateAnswer 1
  | _ =>
    match i.liveEntry h.tag with
    | none => i.count Cnt.fabricLateAnswer 1
    | some e =>
      let j : Inst := { i with fab := { i.fab with cpl := i.fab.cpl.del (h.tag % 2 ^ 13) } }
      let k := if b.status ≠ St.instOff && e.op.body.isReset then j.resumeChan e.op.dst e.seq else j
      if (i.ctx e.op.ctx).live then (k.answered e.op b h.poison).checkAllDone.pump else k.pump

/-- FABRIC_TIMEOUT (R273): three retransmissions, then the channel is parked. A channel that waits sends nothing but its offers: the
operation of any other entry goes back to its owner. -/
def Inst.fabricTimeout (entry : Nat) (i : Inst) : Inst :=
  if !i.running then i
  else match i.fab.cpl.find entry with
    | none => i
    | some e =>
      let waits := (i.chan e.op.dst).parked || (i.chan e.op.dst).offWait
      let freed : Inst := { i with fab := { i.fab with cpl := i.fab.cpl.del entry } }
      if waits && !e.op.body.isReset then (freed.requeue e.op).pump
      else if e.tries < 3 then
        let j : Inst := { i with fab := { i.fab with cpl := i.fab.cpl.put entry { e with tries := e.tries + 1 } } }
        (j.count Cnt.fabricRetransmit 1).putOp e.op e.seq (entry + 2 ^ 13 * e.gen) true e.version
      else if waits then freed
      else (i.park e.op.dst).pump

/-- An offer with CHANNEL_RESET on a channel that waits; one still unanswered gives way to it, other offers go back to the queue
(R261, R273, R274). -/
def Inst.offerAnew (h : Home) (i : Inst) : Inst :=
  let mine := fun (e : Nat × CplEntry) => decide (e.2.op.dst = h) && e.2.op.owner == OpOwner.offer
  let back := (i.fab.cpl.filter (fun e => mine e && !e.2.op.body.isReset)).map (fun e => e.2.op)
  (back.foldl (fun (i : Inst) o => i.requeue o) { i with fab := { i.fab with cpl := i.fab.cpl.filter (fun e => !mine e) } }).offerReset h

/-- PARKED_CHANNEL_OFFER and OFF_WAIT_OFFER (R273, R274). -/
def Inst.parkedOffer (h : Home) (i : Inst) : Inst := if i.running && (i.chan h).parked then i.offerAnew h else i
def Inst.offWaitOffer (h : Home) (i : Inst) : Inst := if i.running && (i.chan h).offWait then i.offerAnew h else i

/-- RETRY_AFTER_EXPIRY (R265): the operation is sent again; of a coding one only its wait ends. -/
def Inst.retryExpiry (op : Nat) (i : Inst) : Inst :=
  match i.fab.retry.find? (fun o => o.id = op) with
  | none => i
  | some o =>
    let j : Inst := { i with fab := { i.fab with retry := i.fab.retry.filter (fun p => p.id ≠ op) } }
    match o.owner with
    | .coding _ _ _ => j.pump
    | .offer => if j.matched o.ctx o.dst then j else (j.requeue o).pump
    | _ => (j.requeue o).pump

/-- JOIN_EXPIRY (R277). -/
def Inst.joinExpiry (x : Nat) (h : Home) (i : Inst) : Inst :=
  { i with fab := { i.fab with joins := i.fab.joins.filter (fun j => j ≠ (x, h)) } }

/-- Whether a node carries a heartbeat partner (R160). -/
def Inst.partnerNode (i : Inst) (node : Nat) : Bool := i.hb.partners.any (fun p => p.home.node = node)

/-- A notice counted towards LINK_RATE (R160). -/
def Inst.linkNotice (node : Nat) (i : Inst) : Inst :=
  if i.partnerNode node then { i with hb := { i.hb with linkNotices := i.view.time :: i.hb.linkNotices } } else i

/-- ROUTE_NOTICE (R279). -/
def Inst.routeNotice (node : Nat) (direct : Bool) (i : Inst) : Inst :=
  { i with fab := { i.fab with routes := i.fab.routes.put node (b2n direct) } }

/-- Whether the instance can declare a loss: it is not itself faulted, starting or OFF. -/
def Inst.watches (i : Inst) : Bool :=
  match i.pw.state with | .active | .doze | .nap | .goingOff => true | _ => false

/-- LOSS_NOTICE (R118, R263, R279): partner homes of the node that have matched are lost; its channels are parked. -/
def Inst.lossNotice (node : Nat) (i : Inst) : Inst :=
  let j : Inst := i.linkNotice node
  let k : Inst := { j with fab := { j.fab with losses := insertNat node j.fab.losses } }
  if !k.watches then k
  else
    let gone := (k.hb.partners.filter (fun p => decide (p.home.node = node) && p.armed && !p.lost)).map (fun p => p.home)
    let d := gone.foldl (fun i h => i.declareLost h 0x02) k
    (((d.fab.chans.filter (fun c => decide (c.peer.node = node))).map (fun c => c.peer)).foldl (fun i h => i.park h) d).pump

/-- LOSS_CLEARED (R279): parked channels offer at once, and resume at the answer (R274). -/
def Inst.lossCleared (node : Nat) (i : Inst) : Inst :=
  let j : Inst := { i with fab := { i.fab with losses := i.fab.losses.filter (· ≠ node) } }
  if !j.running then j
  else ((j.fab.chans.filter (fun c => decide (c.peer.node = node) && c.parked)).map (fun c => c.peer)).foldl (fun i h => i.offerAnew h) j

/-- HEARTBEAT (R117, R118, R263). -/
def Inst.heartbeat (b : HeartbeatBody) (i : Inst) : Inst :=
  let h : Home := { node := b.srcNode, idx := b.home }
  match i.hb.partners.find? (fun p => p.home = h) with
  | none => i
  | some p =>
    let set : Inst := { i with hb := { i.hb with partners := i.hb.partners.map (fun q => if q.home = h then { q with epoch := some b.epoch } else q) } }
    if p.lost || !p.armed || !i.watches then set
    else if b.state = 5 then (set.declareLost h 0x03).pump
    else if (match p.epoch with | some e => decide (e ≠ b.epoch) | none => false) then (set.declareLost h 0x04).pump
    else set

/-- HEARTBEAT_SEND (R117): one round, in every power state. -/
def Inst.heartbeatSend (i : Inst) : Inst :=
  ({ i with hb := { i.hb with seq := (i.hb.seq + 1) % 2 ^ 16 } }).sendHeartbeats

/-- SILENCE_TIMEOUT (R118, R263). -/
def Inst.silence (h : Home) (i : Inst) : Inst :=
  if i.watches && i.hb.partners.any (fun p => decide (p.home = h) && p.armed && !p.lost) then (i.declareLost h 0x01).pump else i

/-- HEARTBEAT. -/
def execHeartbeat (i : InstId) (b : HeartbeatBody) (s : State) : Host.Outcome State Fault Refusal := runInst i (Inst.heartbeat b) s

/-- RESPONSE. -/
def execResponse (i : InstId) (h : FabHdr) (b : RespBody) (s : State) : Host.Outcome State Fault Refusal := runInst i (Inst.response h b) s

/-- FABRIC_TIMEOUT. -/
def execFabricTimeout (i : InstId) (entry : Nat) (s : State) : Host.Outcome State Fault Refusal := runInst i (Inst.fabricTimeout entry) s

/-- PARKED_CHANNEL_OFFER. -/
def execParkedChannelOffer (i : InstId) (peer : Home) (s : State) : Host.Outcome State Fault Refusal := runInst i (Inst.parkedOffer peer) s

/-- OFF_WAIT_OFFER. -/
def execOffWaitOffer (i : InstId) (peer : Home) (s : State) : Host.Outcome State Fault Refusal := runInst i (Inst.offWaitOffer peer) s

/-- RETRY_AFTER_EXPIRY. -/
def execRetryAfterExpiry (i : InstId) (op : Nat) (s : State) : Host.Outcome State Fault Refusal := runInst i (Inst.retryExpiry op) s

/-- JOIN_EXPIRY. -/
def execJoinExpiry (i : InstId) (ctx : Nat) (peer : Home) (s : State) : Host.Outcome State Fault Refusal := runInst i (Inst.joinExpiry ctx peer) s

/-- ROUTE_NOTICE. -/
def execRouteNotice (i : InstId) (node : Nat) (direct : Bool) (s : State) : Host.Outcome State Fault Refusal := runInst i (Inst.routeNotice node direct) s

/-- BANDWIDTH_NOTICE: counted towards LINK_RATE; the fraction acts through endpoint credit alone (R279). -/
def execBandwidthNotice (i : InstId) (node _fraction : Nat) (s : State) : Host.Outcome State Fault Refusal := runInst i (Inst.linkNotice node) s

/-- LOSS_NOTICE. -/
def execLossNotice (i : InstId) (node : Nat) (s : State) : Host.Outcome State Fault Refusal := runInst i (Inst.lossNotice node) s

/-- LOSS_CLEARED. -/
def execLossCleared (i : InstId) (node : Nat) (s : State) : Host.Outcome State Fault Refusal := runInst i (Inst.lossCleared node) s

/-- HEARTBEAT_SEND. -/
def execHeartbeatSend (i : InstId) (s : State) : Host.Outcome State Fault Refusal := runInst i Inst.heartbeatSend s

/-- SILENCE_TIMEOUT. -/
def execSilenceTimeout (i : InstId) (peer : Home) (s : State) : Host.Outcome State Fault Refusal := runInst i (Inst.silence peer) s

end Sys2Proof.Machine
end

