-- ==== Sys2Proof/Machine/StepClose.lean ====
section
/-! DEFINITION. GRAD_IN as the reduction unit drives it, late norms, step close and the per-step record (R13 to R18, R33, R170 to
R172, R189, R235, R347 to R349). -/

namespace Sys2Proof.Machine

/-- A start flag on GRAD_IN ends a run of beats that belonged to no descriptor (R171). -/
def Inst.startFlag (i : Inst) : Inst := { i with opt := { i.opt with stray := false } }

/-- GRADIENT: presented under credit, framed, then judged; without credit it stays in the reduction unit (R17, R18, R171). -/
def Inst.gradIn (g : GradItem) (i : Inst) : Inst :=
  if i.pw.state ≠ .active then i
  else if !i.gradCredit g.desc.ctx g.payload.length then i.poolFail 0
  else if !gradFramed g || g.desc.kind ≠ 0 then i.startFlag.malformedGrad (descCtx g.desc) (descBytes g.desc)
  else (i.startFlag.gradient g).pump

/-- END_OF_STEP and NORM: they need credit but no space. -/
def Inst.controlIn (g : GradItem) (f : GradDesc → Inst → Inst) (i : Inst) : Inst :=
  if i.pw.state ≠ .active then i
  else if !gradFramed g then i.startFlag.malformedGrad (descCtx g.desc) (descBytes g.desc)
  else (f g.desc i.startFlag).pump

/-- BEATS_WITHOUT_DESCRIPTOR: counted once for the whole run up to the next start flag, with zeros in the log (R171). -/
def Inst.strayBeats (beats : Nat) (i : Inst) : Inst :=
  if i.pw.state ≠ .active ∨ beats = 0 ∨ i.opt.stray then i
  else Inst.malformedGrad none (List.replicate 32 0) { i with opt := { i.opt with stray := true } }

/-- WAKE: a hint to an instance in DOZE or NAP; otherwise ignored (R17). -/
def Inst.wakeHint (i : Inst) : Inst := if i.pw.state = .doze ∨ i.pw.state = .nap then i.wakeUp else i

/-- Whether some update waits for the NORM of a step, after that step's END_OF_STEP (R189). -/
def Inst.awaitsNorm (x step : Nat) (i : Inst) : Bool :=
  let ended := (i.ctx x).run.endSteps.any (fun e => e.1 = step) || (i.ctx x).run.closed.contains step
  ended && (i.normOf x step).isNone && (match i.image x with
    | none => false
    | some m => i.opt.work.any (fun w => decide (w.ctx = x) && w.stage == .pending &&
        (match i.clipExact m x w.layer w.step with
         | some true => decide (w.step = step)
         | some false => decide (w.step = step + 1) && decide (m.head.baseStep + 1 < w.step)
         | none => false)))

/-- NORM_LATE (R189). -/
def Inst.normLate (x step : Nat) (i : Inst) : Inst :=
  if !i.awaitsNorm x step || (i.ctx x).run.normLate.contains step then i
  else
    let j := (i.count Cnt.normLate 1).event 0x1901 (some x) [(24, 6, step)]
    let k := j.modRun x (fun r => { r with normLate := insertNat step r.normLate })
    if i.stepClosed x step then k else k.modMark x step (fun m => { m with flags := m.flags ||| 2 })

/-- Chunks of a class of a layer that this instance serves, ascending (R235, R236). -/
def Inst.servedChunks (m : MapImage) (x : Nat) (l : LayerRec) (c : ClassRec) (i : Inst) : List ChunkId :=
  if c.kind = 0 then
    (i.servedRanges x l).flatMap (fun q => (List.range (m.perRange c.id)).map (fun k => { ctx := x, cls := c.id, q := q, k := k }))
  else
    ((m.layerBlocks l.id c.id).flatMap (fun b => (List.range b.chunks).map (fun k =>
      ({ ctx := x, cls := c.id, q := b.first + k, k := 0 } : ChunkId)))).filter (fun k => (i.servesChunk m k).isSome)

/-- The records of chunks as they stand; a stand-in has those of its copies, and of a chunk it serves and keeps no copy of a record of
free values (R236 gives it an entry, no rule its fields; log entry 77). -/
def Inst.recsOf (cs : List ChunkId) (i : Inst) : Inst × List (ChunkId × ChunkRec) :=
  cs.foldl (fun (a : Inst × List (ChunkId × ChunkRec)) c =>
    match a.1.chunkSlot c with
    | some s => let r := a.1.readRec s; (r.1, a.2 ++ [(c, r.2)])
    | none => match a.1.copyOf c with
      | some k => (a.1, a.2 ++ [(c, k.info)])
      | none =>
        let f := a.1.freshValue
        let g := f.1.freshValue
        (g.1, a.2 ++ [(c, { version := f.2.toNat % 2 ^ 32, digest := g.2, attr := f.2.toNat / 2 ^ 32 % 16 })])) (i, [])

/-- The home layer digest of a class (R235); none where the instance serves no chunk of it. -/
def Inst.homeDigest (m : MapImage) (x : Nat) (l : LayerRec) (c : Nat) (i : Inst) : Inst × Option (BitVec 64) :=
  match m.cls c with
  | none => (i, none)
  | some r =>
    let d := i.recsOf (i.servedChunks m x l r)
    (d.1, if d.2.isEmpty then none else some (crc64 (d.2.flatMap (fun p => natLe 8 p.2.digest.toNat))))

/-- A layer's entry of a per-step record (R348). -/
def Inst.stepEntry (m : MapImage) (x step : Nat) (mark : StepMark) (l : LayerRec) (i : Inst) : Inst × Bytes :=
  let t := i.emit.tally.find? (fun t => decide (t.ctx = x) && decide (t.layer = l.id) && decide (t.step = step))
  let counts := match t with | some t => t.counts | none => []
  let tr := match t with | some t => (crc64 ((sortBy Prod.fst t.crcs).flatMap (fun c => natLe 8 c.2.toNat))).toNat | none => 0
  let ds := (List.range 8).foldl (fun (a : Inst × List (Option (BitVec 64))) c =>
    let r := a.1.homeDigest m x l c; (r.1, a.2 ++ [r.2])) (i, [])
  let fl := ((mark.layers.find? (fun y => y.1 = l.id)).map Prod.snd).getD 0
  let mask := (List.range 8).foldl (fun a c => if (ds.2.getD c none).isSome then a + 2 ^ c else a) 0
  (ds.1, packed 128 ([(0, 4, l.id), (32, 1, fl + 8 * b2n ((i.ctx x).run.halted.contains l.id)), (33, 1, mask), (40, 8, tr)] ++
    (List.range 7).map (fun k => (4 + 4 * k, 4, counts.getD k 0)) ++
    (List.range 8).map (fun c => (48 + 8 * c, 8, ((ds.2.getD c none).map BitVec.toNat).getD 0))))

/-- The per-step record (R348). BUSY counts datapath cycles, which the model does not keep: a free value (log entry 9). THROTTLED is what
was throttled since the context's last record (R349; log entry 49). -/
def Inst.stepRecord (m : MapImage) (x step : Nat) (i : Inst) : Inst × Bytes :=
  let t := i.tallyOf x
  let mark := (t.marks.find? (fun k => k.step = step)).getD { step := step, first := 0, last := 0, updated := 0, missing := 0, flags := 0, layers := [] }
  let ls := sortBy (fun l => l.firstParam) (m.layers.filter (fun l => !(i.servedRanges x l).isEmpty))
  let es := ls.foldl (fun (a : Inst × Bytes) l => let e := a.1.stepEntry m x step mark l; (e.1, a.2 ++ e.2)) (i, [])
  let f := es.1.freshValue
  let g := f.1.noteThrottle
  let busy := f.2.toNat % 2 ^ 48
  let thr := min (g.telem.throttled - t.throttledAt) (2 ^ 32 - 1)
  let standin := ls.any (fun l => (i.servedRanges x l).any (fun q => match i.serves x q with | some (some _) => true | _ => false))
  let lag := i.maxLag x
  let flags := mark.flags % 4 + 4 * b2n standin + 8 * bits mark.flags 3 3 + 16 * b2n (decide (thr ≠ 0))
  let pend := (i.opt.work.filter (fun w => decide (w.ctx = x) && decide (step < w.step) && w.stage == .pending)).length
  let head := packed 128 ([(0, 1, x), (1, 1, flags), (2, 2, ls.length), (4, 4, 128 + 128 * ls.length), (8, 6, step), (16, 8, mark.first),
    (24, 8, mark.last), (32, 8, i.view.time), (40, 6, busy), (48, 2, min lag 0xFFFF), (50, 2, min (max t.lagMax lag) 0xFFFF),
    (52, 4, mark.updated), (104, 4, pend), (108, 4, thr), (120, 4, mark.missing)] ++
    (List.range 12).map (fun k => (56 + 4 * k, 4, t.counts.getD k 0)))
  let r := head ++ es.2
  (g, overlay r [(112, 8, (crc64 r).toNat)])

/-- Bytes written into a host ring of `size` bytes from an offset, wrapping at its end (R347). -/
def ringWrites (base size off : Nat) (b : Bytes) : List OutEvent :=
  let n := min b.length (size - off)
  [OutEvent.hostWrite (base + off) (b.take n)] ++ (if n < b.length then [OutEvent.hostWrite base (b.drop n)] else [])

/-- A record put into the host ring, or dropped where it does not fit (R347). -/
def Inst.putStepRecord (x step : Nat) (b : Bytes) (i : Inst) : Inst :=
  let t := i.telem
  let size := t.stepSize * 4096
  let j : Inst := { i with telem := { t with lastHead := b.take 128 } }
  if size = 0 then j
  else
    let used := (t.stepHead + size - t.stepTail) % size
    if size - 1 - used < b.length then (j.count Cnt.stepRecordDrop 1).event 0x2003 (some x) [(24, 6, step)]
    else { j with out := j.out ++ ringWrites t.stepBase size t.stepHead b,
                  telem := { j.telem with stepHead := (t.stepHead + b.length) % size } }

/-- Whether a step may close (R33). -/
def Inst.mayClose (x step : Nat) (i : Inst) : Bool :=
  let r := (i.ctx x).run
  (i.image x).isSome && r.endSteps.any (fun e => e.1 = step) && !r.closed.contains step &&
    i.opt.work.all (fun w => !(decide (w.ctx = x) && decide (w.step = step)) || w.emitted || w.stage == .skipped) &&
    i.emit.waiting.all (fun b => !(decide (b.ctx = x) && decide (b.step = step))) &&
    (step == 0 || r.closed.contains (step - 1) || !r.opened.contains (step - 1))

/-- STEP_CLOSE (R33); on a trial boot the first one starts the self-test of R339. -/
def Inst.stepClose (x step : Nat) (i : Inst) : Inst :=
  match i.image x with
  | none => i
  | some m =>
    if !i.running || !i.mayClose x step then i
    else
      let r := i.stepRecord m x step
      let j := r.1.putStepRecord x step r.2
      let t := j.tallyOf x
      let k := (j.setTally { t with counts := List.replicate 12 0, marks := t.marks.filter (fun q => q.step ≠ step), lagMax := j.maxLag x, throttledAt := j.telem.throttled }).modRun x
        (fun q => { q with closed := insertNat step q.closed, endSteps := q.endSteps.filter (fun e => e.1 ≠ step) })
      let n : Inst := { k with emit := { k.emit with tally := k.emit.tally.filter (fun q => !(decide (q.ctx = x) && decide (q.step = step))) } }
      let w : Inst := if n.boot.trial && !n.pw.trialReady then { n with pw := { n.pw with trialTest := true } } else n
      ((w.event 0x2001 (some x) [(24, 6, step)]).retireScalars x).pump

/-- GRADIENT. -/
def execGradient (i : InstId) (g : GradItem) (s : State) : Host.Outcome State Fault Refusal := runInst i (Inst.gradIn g) s

/-- END_OF_STEP. -/
def execEndOfStep (i : InstId) (g : GradItem) (s : State) : Host.Outcome State Fault Refusal :=
  runInst i (Inst.controlIn g Inst.endOfStep) s

/-- NORM. -/
def execNorm (i : InstId) (g : GradItem) (s : State) : Host.Outcome State Fault Refusal := runInst i (Inst.controlIn g Inst.norm) s

/-- BEATS_WITHOUT_DESCRIPTOR. -/
def execBeatsWithoutDescriptor (i : InstId) (beats : Nat) (s : State) : Host.Outcome State Fault Refusal :=
  runInst i (Inst.strayBeats beats) s

/-- WAKE. -/
def execWake (i : InstId) (_ctx : Nat) (s : State) : Host.Outcome State Fault Refusal := runInst i Inst.wakeHint s

/-- GRAD_IN_DESCRIPTOR_PRESENTED: a descriptor waits while credit is withheld from a sleeping instance (R326). -/
def execGradInDescriptorPresented (i : InstId) (s : State) : Host.Outcome State Fault Refusal := runInst i Inst.wakeHint s

/-- STEP_CLOSE. -/
def execStepClose (i : InstId) (ctx step : Nat) (s : State) : Host.Outcome State Fault Refusal := runInst i (Inst.stepClose ctx step) s

/-- NORM_LATE. -/
def execNormLate (i : InstId) (ctx step : Nat) (s : State) : Host.Outcome State Fault Refusal := runInst i (Inst.normLate ctx step) s

end Sys2Proof.Machine
end

