-- ==== Sys2Proof/Machine/Integrity.lean ====
section
/-! DEFINITION. The scrubber, margin samples, the HBM channel notice and the periodic life record (R240 to R242, R248 to R252,
R350 to R354). -/

namespace Sys2Proof.Machine

/-- What a slot of the managed region holds. -/
inductive SlotUse where
  | data (c : ChunkId)
  | rows (x : Nat) (fs : List FragId)
  | vector
  | table
  | ledger
  | unused
  deriving DecidableEq, Repr

/-- What an extent of an image holds at a slot of it (R63, R97, R114). -/
def MapImage.extentUse (m : MapImage) (x : Nat) (e : ExtentRec) (slot : Nat) : SlotUse :=
  let n := slot - e.slotBase
  match e.kind with
  | 0 => match m.chunkAt x e.stripe (e.firstRow + n) e.position with
    | some c => .data c
    | none => .unused
  | 3 =>
    let rows := (List.range e.rowCount).filter (fun r => decide ((subRowPlace (m.shadowWidth e.stripe e.position (e.firstRow + r)) r).1 = n))
    .rows x (rows.map (fun r => { stripe := e.stripe, row := e.firstRow + r, role := 3, index := e.position }))
  | k => if n < e.rowCount then .rows x [{ stripe := e.stripe, row := e.firstRow + n, role := k, index := e.position }] else .vector

/-- The extent of this instance that an image puts at a slot. -/
def MapImage.extentOf (m : MapImage) (self : Home) (slot : Nat) : Option ExtentRec :=
  m.extents.find? (fun e => decide (e.inst = self.idx) && decide (e.slotBase ≤ slot) && decide (slot < e.slotBase + m.extentSlots e))

/-- What an image puts at a slot of this instance. -/
def MapImage.slotUse (m : MapImage) (x : Nat) (self : Home) (slot : Nat) : Option SlotUse :=
  match m.extentOf self slot with
  | some e => some (m.extentUse x e slot)
  | none => m.classes.findSome? (fun c => (m.noneAt x self c.id slot).map SlotUse.data)

/-- What a slot holds (R60, R63). -/
def Inst.slotUse (i : Inst) (slot : Nat) : SlotUse :=
  match i.regionOf slot with
  | 0 =>
    match i.memb.moving.findSome? (fun mv => (mv.slots.find? (fun s => s.2 = slot)).map Prod.fst) with
    | some c => .data c
    | none => ((i.ctxs.findSome? (fun c => (i.image c.1).bind (fun m => m.slotUse c.1 i.self slot)))).getD .unused
  | 1 => .ledger
  | 2 => .unused
  | _ => .table

/-- The slots of a context's committed map copy (R60; log entry 38). -/
def mapCopySlot (x : Nat) : Nat := Slot.mapRegion + 2048 * x

/-- Vector slots of the parity extents of every LIVE context (R97, R248). -/
def Inst.vectorSlots (i : Inst) : List Nat :=
  (i.ctxs.flatMap (fun c => match i.image c.1 with
    | some m => (m.extents.filter (fun e => decide (e.inst = i.view.idx) && (e.kind == 1 || e.kind == 2))).flatMap (fun e =>
        (List.range (m.extentSlots e - e.rowCount)).map (fun n => e.slotBase + e.rowCount + n))
    | none => []))

/-- The first slot of part `phase` of a lap at or above a slot (R248). -/
def Inst.lapFrom (i : Inst) (phase slot : Nat) : Option Nat :=
  match phase with
  | 1 => let s := max slot Slot.chunkTable
         if s < Slot.total then some s else none
  | 2 => (((i.ctxs.filter (fun c => c.2.live)).flatMap (fun c => (List.range 1024).map (fun n => mapCopySlot c.1 + n))).filter (slot ≤ ·)).min?
  | 3 => (i.vectorSlots.filter (fun s => decide (slot ≤ s) && i.isValid s)).min?
  | 4 => (i.mem.valid.filter (fun s => decide (slot ≤ s) && decide (s < i.ledgerBase))).min?
  | 5 => let s := max slot i.ledgerBase
         if s < Slot.ledgerEnd then some s else none
  | _ => none

/-- The next slot of a lap: in its part, else in the parts that follow. -/
def Inst.lapNext (i : Inst) (phase slot : Nat) : Option (Nat × Nat) :=
  match i.lapFrom phase slot with
  | some s => some (phase, s)
  | none => ((List.range 6).filter (phase < ·)).findSome? (fun p => (i.lapFrom p 0).map (fun s => (p, s)))

/-- SCRUB_LAP_START (R249, R352): the period is shortened by the debt. -/
def Inst.lapStart (i : Inst) : Inst :=
  if !i.pw.ready || i.scrub.running || !(i.running || i.pw.state == .doze || i.pw.state == .nap) then i
  else
    let p := i.reg 0x1D 0x104 0x708 % 2 ^ 17
    { i with scrub := { i.scrub with running := true, began := true, phase := 1, slot := Slot.chunkTable, startT := i.view.time,
                                     periodS := max (p / 2) (p - i.scrub.debt) } }

/-- A failed line found by the scrubber (R240). -/
def Inst.scrubFailed (slot : Nat) (lines : List Nat) (i : Inst) : Inst :=
  match i.slotUse slot with
  | .data c => i.chunkFailed c slot (lines.headD 0) true
  | .rows x fs => fs.foldl (fun i f =>
      if f.role = 3 then
        match i.heldRow x f with
        | some h => if lines.any (fun l => decide (h.first ≤ l / 4) && decide (l / 4 < h.first + h.count)) then i.damageRow x f else i
        | none => i
      else i.startRowRepair x f lines false) i
  | .vector => i.selfFault 0x10 (slot + 2 ^ 32 * lines.headD 0)
  | .table => i.selfFault 0x10 (slot + 2 ^ 32 * lines.headD 0)
  | .ledger =>
    let a := 4096 * slot
    let hit := fun (p : Nat × Nat) => lines.any (fun l => decide (p.1 < a + 64 * l + 64) && decide (a + 64 * l < p.1 + p.2))
    if i.backlogPart.1 ≤ a ∧ a < i.clipPart.1 then i.selfFault 0x10 (slot + 2 ^ 32 * lines.headD 0)
    else if a < i.backlogPart.1 then
      (i.cod.ledger.filter (fun h => hit (h.addr, ledgerStored h.entry) && !h.damaged)).foldl (fun i h => i.damageEntry h) i
    else
      (i.opt.work.filter (fun w => w.place == .clip && w.stage == .pending && hit (w.clipAt, 64 + w.payload.length))).foldl (fun i w =>
        (i.count Cnt.clipSpill 1).modWork w.ctx w.q w.step (fun v => { v with place := .spilled, payload := [] })) i
  | .unused => i

/-- The digest check of a data chunk of an EXACT class whose lines all read: skipped where its version changed between the first line
and the last (R250). -/
def Inst.scrubDigest (c : ChunkId) (slot before : Nat) (b : Bytes) (i : Inst) : Inst :=
  match i.image c.ctx with
  | none => i
  | some m =>
    if m.protOf c ≠ 0 || i.repairing slot || !i.isValid slot then i
    else
      let r := i.readRecBy true slot
      if r.2.version ≠ before then r.1.count Cnt.scrubDigestSkip 1
      else if crc64 b = r.2.digest || r.2.lost then r.1
      else (r.1.count Cnt.scrubDigestFail 1).startChunkRepair c slot 64 true

/-- The version of the chunk at a slot, as the scrubber takes it with the first line (R250). -/
def Inst.scrubVersion (slot : Nat) (i : Inst) : Inst × Nat :=
  match i.slotUse slot with
  | .data _ => let r := i.readRecBy true slot; (r.1, r.2.version)
  | _ => (i, 0)

/-- One slot read by the scrubber: 64 lines, then the checks of what it holds (R248, R250, R251). `during` is what the instance does
between the two halves of the slot. -/
def Inst.scrubSlot (slot : Nat) (during : Inst → Inst) (i : Inst) : Inst :=
  let v := i.scrubVersion slot
  let a := v.1.readLines true (64 * slot) 32
  let d := (during a.1).readLines true (64 * slot + 32) 32
  let ls := a.2 ++ d.2
  let j := d.1.count Cnt.scrubLines 64
  if !(failedLines ls).isEmpty then j.scrubFailed slot (failedLines ls)
  else match j.slotUse slot with
    | .data c => j.scrubDigest c slot v.2 (joinLines ls)
    | .rows x [f] => if f.role = 1 then j.colonyRow true x f else j
    | _ => j

/-- SCRUB_SLOT_READ (R248): nothing once every part of the lap is read. `writeback` says that the oldest update in flight is written back
while the slot is read (R250; log entry 73). -/
def Inst.scrubRead (us : List Upset) (writeback : Bool) (i : Inst) : Inst :=
  let j := i.upsets us
  if !j.running || !j.scrub.running || j.scrub.phase = 0 then j
  else match j.lapNext j.scrub.phase j.scrub.slot with
    | none => { j with scrub := { j.scrub with phase := 0 } }
    | some p =>
      let k := j.scrubSlot p.2 (if writeback then Inst.updateWriteback else id)
      let n := { k.scrub with phase := p.1, slot := p.2 + 1 }
      ({ k with scrub := match k.lapNext p.1 (p.2 + 1) with | some q => { n with phase := q.1, slot := q.2 } | none => { n with phase := 0 } }).pump

/-- SCRUB_LAP_DONE (R241, R249, R352). -/
def Inst.lapDone (ms : Nat) (i : Inst) : Inst :=
  let s := i.scrub
  if !s.running || s.phase ≠ 0 || i.pw.state = .off || i.pw.state = .restoring then i
  else
    let p := i.reg 0x1D 0x104 0x708 % 2 ^ 17
    let t : ScrubSt := { s with running := false, lastMs := ms, late := decide (s.periodS * 1000 < ms), forced := false,
                                debt := debtAfter p s.debt 0 (ms / 1000) }
    (({ i with scrub := t, ecc := { i.ecc with corr := [] } }).count Cnt.scrubLaps 1).event 0x1D02 none [(24, 4, ms)]

/-- LAP_LATE (R249); the timers of a lap stand still in OFF. -/
def Inst.lapLate (i : Inst) : Inst :=
  if !i.scrub.running || i.scrub.late || i.pw.state = .off || i.pw.state = .restoring then i
  else ({ i with scrub := { i.scrub with late := true } }).event 0x1D01 none [(24, 4, i.scrub.periodS)]

/-- SCRUB_FORCED (R249). -/
def Inst.lapForced (i : Inst) : Inst :=
  if !i.scrub.running || i.scrub.forced || i.pw.state = .off || i.pw.state = .restoring then i
  else (({ i with scrub := { i.scrub with forced := true } }).event 0x1D03 none []).wakeUp

/-- MARGIN_SAMPLE (R350): the interface margins are taken, and the supply is lowered for the stepped self-test. -/
def Inst.marginStart (t v : Nat) (i : Inst) : Inst :=
  if !i.pw.ready || i.arr.sampling || !(i.running || i.pw.state == .doze || i.pw.state == .nap) || i.reg 0x20 0x140 0xE10 = 0 then i
  else
    (({ i with arr := { i.arr with sampling := true, restart := false, lowSupply := true, hbmT := t, hbmV := v,
                                      marginFrom := i.view.time } }).emitOut (.supplyStep false)).wakeUp

/-- MARGIN_RESTART (R351): again from nominal supply once no class-1 work is left. -/
def Inst.marginRestart (i : Inst) : Inst :=
  if i.arr.sampling && i.arr.restart && i.flt.jobs.isEmpty then
    ({ i with arr := { i.arr with restart := false, lowSupply := true } }).emitOut (.supplyStep false)
  else i

/-- The end of a margin sample (R160, R350, R352, R353): its results, its debt, and the ARRAY_MARGIN warning. -/
def Inst.marginDone (steps : Nat) (i : Inst) : Inst :=
  let a := i.arr
  let l := i.telem.life
  let mins := setAt 0 (min (l.mins.getD 0 0xF) steps) (setAt 1 (min (l.mins.getD 1 0xFFFF) a.hbmT) (setAt 2 (min (l.mins.getD 2 0xFFFF) a.hbmV) l.mins))
  let j : Inst := { i with arr := { a with sampling := false, restart := false, lowSupply := false, steps := steps,
                                           marginHbm := a.hbmT % 2 ^ 16 + 2 ^ 16 * (a.hbmV % 2 ^ 16), marginArr := some steps,
                                           marginEcc := i.memb.eccMeasure,
                                           marginDebt := debtAfter (i.reg 0x20 0x140 0xE10 * aonHz) a.marginDebt a.marginFrom i.view.time },
                           telem := { i.telem with life := { l with mins := mins } } }
  let th := j.reg 0x16 0x110 2 % 16
  let on := if th = 0 then false else if j.memb.warn.testBit 2 then decide (steps < th + 1) else decide (steps < th)
  (((j.emitOut (.supplyStep true)).count Cnt.marginSamples 1).event 0x2002 none [(20, 1, steps), (22, 2, a.hbmT), (24, 4, i.memb.eccMeasure)]).setWarn 2 on steps

/-- LIFE_RECORD_PERIODIC (R352, R354). -/
def Inst.lifePeriodic (i : Inst) : Inst :=
  ({ i with telem := { i.telem with lifeStart := some (i.telem.lifeStart.getD i.view.time) } }).lifeTrigger true

/-- HBM_CHANNEL_FAILURE (R242). -/
def Inst.hbmFailure (i : Inst) : Inst :=
  match i.pw.state with | .off | .restoring => i | _ => i.selfFault 0x12 0

/-- SCRUB_LAP_START. -/
def execScrubLapStart (i : InstId) (s : State) : Host.Outcome State Fault Refusal := runInst i Inst.lapStart s

/-- SCRUB_SLOT_READ. -/
def execScrubSlotRead (i : InstId) (read : SlotRead) (s : State) : Host.Outcome State Fault Refusal :=
  runInst i (Inst.scrubRead read.upsets read.writeback) s

/-- SCRUB_LAP_DONE. -/
def execScrubLapDone (i : InstId) (durationMs : Nat) (s : State) : Host.Outcome State Fault Refusal := runInst i (Inst.lapDone durationMs) s

/-- LAP_LATE. -/
def execLapLate (i : InstId) (s : State) : Host.Outcome State Fault Refusal := runInst i Inst.lapLate s

/-- SCRUB_FORCED. -/
def execScrubForced (i : InstId) (s : State) : Host.Outcome State Fault Refusal := runInst i Inst.lapForced s

/-- MARGIN_SAMPLE. -/
def execMarginSample (i : InstId) (hbmTiming hbmVoltage : Nat) (s : State) : Host.Outcome State Fault Refusal :=
  runInst i (Inst.marginStart hbmTiming hbmVoltage) s

/-- MARGIN_RESTART. -/
def execMarginRestart (i : InstId) (s : State) : Host.Outcome State Fault Refusal := runInst i Inst.marginRestart s

/-- LIFE_RECORD_PERIODIC. -/
def execLifeRecordPeriodic (i : InstId) (s : State) : Host.Outcome State Fault Refusal := runInst i Inst.lifePeriodic s

/-- HBM_CHANNEL_FAILURE. -/
def execHbmChannelFailure (i : InstId) (s : State) : Host.Outcome State Fault Refusal := runInst i Inst.hbmFailure s

end Sys2Proof.Machine
end

