-- ==== Sys2Proof/Machine/Boot.lean ====
section
/-! DEFINITION. Images: the boot decision of the DMC, the manifest's checks, and the program image put to use (R181, R334 to R341). -/

namespace Sys2Proof.Machine

/-- The state of a slot as the DMC finds it. -/
def slotOf (f : FlashView) (b : Bool) : SlotState := if b then f.slotB else f.slotA

/-- What a boot decides (R337): the record as it then stands, the events (code, slot), and the slot booted and whether as a
trial; none where no slot can boot. -/
structure BootPick where
  after  : BootRec
  events : List (Nat × Nat)
  pick   : Option (Bool × Bool)
  deriving DecidableEq, Repr

/-- The choice of ACTIVE, or of the other slot where ACTIVE cannot boot (R337). -/
def bootActive (f : FlashView) (r : BootRec) (ev : List (Nat × Nat)) : BootPick :=
  if slotOf f r.activeB = .verified then { after := r, events := ev, pick := some (r.activeB, false) }
  else if slotOf f (!r.activeB) = .verified then
    { after := r, events := ev ++ [(0x1007, b2n (!r.activeB))], pick := some (!r.activeB, false) }
  else { after := r, events := ev, pick := none }

/-- The boot decision (R337). -/
def bootDecide (f : FlashView) : BootPick :=
  let r := f.boot
  match r.tryNext with
  | none => bootActive f r []
  | some t =>
    if slotOf f t = .verified then
      if !r.trialUsed then { after := { r with trialUsed := true }, events := [], pick := some (t, true) }
      else bootActive f { r with tryNext := none, trialUsed := false } [(0x1006, b2n t)]
    else bootActive f { r with tryNext := none } []

/-- A boot record as the DMC is told to write it: ACTIVE, TRY (0 none, 1 A, 2 B), TRIAL_USED (log entry 3). -/
def bootWord (r : BootRec) : Nat :=
  b2n r.activeB + 2 * (match r.tryNext with | none => 0 | some b => 1 + b2n b) + 8 * b2n r.trialUsed

/-- Manifest fields (R335). -/
def manVersion (m : Bytes) : Nat := field 8 4 m
def manSeqSha (m : Bytes) : Bytes := slice 20 48 m
def manProgSha (m : Bytes) : Bytes := slice 68 48 m

/-- The manifest's own fields (R6, R335). -/
def manifestOk (m : Bytes) : Bool :=
  decide (m.length = 256) && decide (field 0 4 m = 0x4D49504A) && decide (field 4 4 m = 0x00010000) &&
    decide (field 12 4 m ≤ 524288) && decide (field 16 4 m ≤ 66048) && decide (field 120 32 m = 0) && decide (field 152 8 m = 0)

/-- The hash checks of a program image (R338). -/
def progHashOk (m prog : Bytes) : Bool :=
  manifestOk m && decide (prog.length = field 16 4 m) && decide (sha384 prog = manProgSha m)

/-- The hash checks of a package (R338). -/
def packageOk (m seq prog : Bytes) : Bool :=
  progHashOk m prog && decide (seq.length = field 12 4 m) && decide (sha384 seq = manSeqSha m)

/-- The PROGRAM_ID of the first program that breaks R181. -/
def firstBadProgram : Nat → List Nat → Bytes → Nat
  | 0, _, b => field 0 2 b
  | n + 1, seen, b =>
    match parseProgram b with
    | none => field 0 2 b
    | some (p, len) => if seen.contains p.id then p.id else firstBadProgram n (seen ++ [p.id]) (b.drop len)

/-- A program image offered: put to use where it passes R338 and R181, else PROGRAM_BAD and the old one stays. -/
def Inst.offerPrograms (hashOk : Bool) (prog : Bytes) (i : Inst) : Inst × Bool :=
  match (if hashOk then parseProgImage prog else none) with
  | some ps =>
    (({ i with boot := { i.boot with programs := ps, programBad := false },
               opt := { i.opt with waits := i.opt.waits.filter (fun w => !(decide (w.2.1 = 0) &&
                 (match (i.image w.1).bind (fun m => m.layer w.2.2) with
                  | some l => ps.any (fun p => decide (p.id = l.program))
                  | none => true))) } } : Inst).event 0x1906 none [(20, 1, 0), (21, 1, ps.length)], true)
  | none =>
    (({ i with boot := { i.boot with programBad := true } }).event 0x1906 none
      [(20, 1, 1), (21, 1, 0), (22, 2, if hashOk then firstBadProgram 32 [] prog else 0)], false)

/-- An entry of the life record's IMAGES (R353). -/
def imageEntry (version slot flags boots epoch : Nat) : Bytes :=
  packed 16 [(0, 4, version), (4, 1, slot), (5, 1, flags), (6, 2, boots), (8, 4, epoch)]

/-- A package's boot noted among the 16 most recent (R353). -/
def Inst.noteBoot (version slot : Nat) (trial : Bool) (i : Inst) : Inst :=
  let l := i.telem.life
  let same := fun (e : Bytes) => decide (field 0 4 e = version) && decide (field 4 1 e = slot)
  let e := match l.images.find? same with
    | some e =>
      let f := field 5 1 e
      imageEntry version slot (if trial then f ||| 1 else if f.testBit 0 then f ||| 2 else f) (min (field 6 2 e + 1) 0xFFFF) (field 8 4 e)
    | none => imageEntry version slot (b2n trial) 1 i.hb.epoch
  { i with telem := { i.telem with life := { l with images := (e :: l.images.filter (fun e => !same e)).take 16 } } }

/-- The rolled-back trial marked in IMAGES (R353): the newest entry of its slot. -/
def markRolled (slot : Nat) : List Bytes → List Bytes
  | [] => []
  | e :: t => if field 4 1 e = slot then overlay e [(5, 1, field 5 1 e ||| 4)] :: t else e :: markRolled slot t

/-- The events of a boot decision, with what the life record keeps of them. -/
def Inst.bootEvent (e : Nat × Nat) (i : Inst) : Inst :=
  let j := i.event e.1 none [(20, 1, e.2)]
  if e.1 = 0x1006 then { j with telem := { j.telem with life := { j.telem.life with images := markRolled e.2 j.telem.life.images } } } else j

/-- The boot decision taken once per boot: a record that changed is written before any byte is loaded (R337). A delivery that
repeats one that failed its checks keeps the decision (R338). -/
def Inst.decideBoot (f : FlashView) (i : Inst) : Inst × Bool :=
  if i.pw.imageBad then (i, true)
  else
    let d := bootDecide f
    let j : Inst := if d.after = f.boot then i else i.emitOut (.dmc 1 (bootWord d.after))
    let k : Inst := d.events.foldl (fun (i : Inst) e => i.bootEvent e) { j with boot := { j.boot with boot := d.after } }
    match d.pick with
    | none => ({ k with pw := { k.pw with noImage := true } }, false)
    | some p => ({ k with boot := { k.boot with slotB := p.1, trial := p.2 }, pw := { k.pw with noImage := false } }, true)

/-- The images of a boot loaded and checked (R334, R338). -/
def Inst.loadBoot (m seq prog : Bytes) (i : Inst) : Inst :=
  let hash := packageOk m seq prog
  let p := i.offerPrograms hash prog
  if !p.2 then { p.1 with pw := { p.1.pw with imageBad := true } }
  else
    let v := manVersion m
    let j : Inst := { p.1 with boot := { p.1.boot with version := v, seqSha := manSeqSha m, replaced := false },
                               pw := { p.1.pw with imageBad := false, start := .selfTest } }
    j.noteBoot v (b2n j.boot.slotB) j.boot.trial

/-- The images of the booted slot reloaded at a return (R329, R333). -/
def Inst.loadReturn (m seq prog : Bytes) (i : Inst) : Inst :=
  let hash := packageOk m seq prog
  let p := i.offerPrograms hash prog
  if !p.2 then p.1.selfFault 0x17 0
  else { p.1 with boot := { p.1.boot with replaced := false }, pw := { p.1.pw with offPhase := .state } }

/-- IMAGE_DELIVERY (R334, R337, R338, R329). -/
def Inst.imageDelivery (f : FlashView) (m seq prog : Bytes) (i : Inst) : Inst :=
  match i.pw.state with
  | .starting =>
    if i.pw.start ≠ .image then i
    else let d := i.decideBoot f; if d.2 then d.1.loadBoot m seq prog else d.1
  | .restoring => if i.pw.offPhase = .image then i.loadReturn m seq prog else i
  | _ => i

/-- PROGRAM_IMAGE_REPLACE (R341): updates in flight have their results already, so the new image acts between updates. -/
def Inst.replacePrograms (m prog : Bytes) (i : Inst) : Inst :=
  match i.pw.state with
  | .active | .doze | .nap =>
    let p := i.offerPrograms (progHashOk m prog && decide (manSeqSha m = i.boot.seqSha)) prog
    if p.2 then { p.1 with boot := { p.1.boot with replaced := true } } else p.1
  | _ => i

/-- IMAGE_DELIVERY. -/
def execImageDelivery (i : InstId) (flash : FlashView) (manifest seqImage progImage : Bytes) (s : State) : Host.Outcome State Fault Refusal :=
  runInst i (Inst.imageDelivery flash manifest seqImage progImage) s

/-- PROGRAM_IMAGE_REPLACE. -/
def execProgramImageReplace (i : InstId) (manifest progImage : Bytes) (s : State) : Host.Outcome State Fault Refusal :=
  runInst i (Inst.replacePrograms manifest progImage) s

end Sys2Proof.Machine
end

