-- ==== Sys2Proof/Machine/Power.lean ====
section
/-! DEFINITION. Power states, OFF and the return, resets, start-up, self-tests, and the die's supply and clocks (R39, R217, R318,
R321 to R342). -/

namespace Sys2Proof.Machine

/-- Whether an array job an initiator submitted is queued or running (R389). -/
def Inst.arrayBusy (i : Inst) : Bool := i.arr.jobs.any (fun j => j.2.work != 0)

/-- Whether a guard sequence is open: GUARD_A written, GUARD_B awaited (R303). -/
def openGuard (g : Tbl Guard) : Bool := g.any (fun x => x.2.valueA.isSome)

/-- Idle (R323); a re-emit request, which wakes, is served before the instance sleeps again (R326). -/
def Inst.idle (i : Inst) : Bool :=
  i.opt.work.all (fun w => w.stage == .written || w.stage == .skipped) && i.shareUsed 0 == 0 && i.shareUsed 2 == 0 &&
    i.cod.backlog.isEmpty && i.fab.cpl.isEmpty &&
    i.opt.flights.isEmpty && i.flt.jobs.isEmpty && i.memb.moving.isEmpty && i.memb.pushes.isEmpty &&
    i.opt.refreshes.all (fun r => r.done) && !i.arrayBusy &&
    i.cmdq.queue.isEmpty && i.cmdq.running.isEmpty &&
    !openGuard i.ctl.guards && i.ctxs.all (fun c => c.2.run.window.isNone) &&
    !i.arr.sampling && !i.pw.trialTest && !i.scrub.forced && i.emit.reemit.isEmpty

/-- The deepest idle state of the policy (R324). -/
def Inst.deepest (i : Inst) : Nat := bits (i.reg 0x10 0x100 0x02100032) 25 24

/-- A request to the power manager (R322). -/
def Inst.requestSleep (p : PState) (i : Inst) : Inst :=
  ({ i with pw := { i.pw with request := some p } }).emitOut (.powerRequest p.code)

/-- DOZE_AFTER (R324). -/
def Inst.dozeAfter (i : Inst) : Inst :=
  if i.pw.state = .active ∧ i.pw.request = none ∧ 1 ≤ i.deepest ∧ i.idle = true then i.requestSleep .doze else i

/-- NAP_AFTER (R324). -/
def Inst.napAfter (i : Inst) : Inst :=
  if i.pw.state = .doze ∧ i.pw.request = none ∧ i.pw.entering = none ∧ !i.pw.waking ∧ 2 ≤ i.deepest then i.requestSleep .nap else i

/-- POWER_STATE_GRANT (R322, R325): the state is entered at the grant, and its entry then completes. -/
def Inst.powerGrant (granted : Bool) (i : Inst) : Inst :=
  match i.pw.request with
  | none => i
  | some p =>
    if granted then
      let j := i.setPState p
      { j with pw := { j.pw with request := none, entering := some p } }
    else { i with pw := { i.pw with request := none } }

/-- SLEEP_ENTRY_DONE (R325, R399): a wake asked for meanwhile follows at once. -/
def Inst.entryDone (i : Inst) : Inst :=
  match i.pw.entering with
  | none => i
  | some p =>
    ({ i with pw := { i.pw with entering := none, waking := i.pw.wakeAfter, wakeAfter := false } }).count
      (if p = PState.nap then Cnt.napEntries else Cnt.dozeEntries) 1

/-- WAKE_TIMEOUT (R333). -/
def Inst.wakeTimeout (i : Inst) : Inst := if i.pw.waking then i.selfFault 0x15 0 else i

/-- The result of a request for OFF (R327). -/
def Inst.offResult (code : Nat) (i : Inst) : Inst := (i.emitOut (.offResult code)).event 0x1008 none [(20, 1, code)]

/-- Work that makes a request for OFF busy (R327). -/
def Inst.offBusy (i : Inst) : Bool :=
  i.opt.work.any (fun w => w.stage == .pending || w.stage == .updating) || !i.cmdq.queue.isEmpty || !i.cmdq.running.isEmpty ||
    i.ctxs.any (fun c => i.transitionOpen c.1) || !i.flt.jobs.isEmpty || i.arrayBusy || decide (i.testTrigger ≠ 0) ||
    i.opt.refreshes.any (fun r => !r.done)

/-- The checks of R327, in order. -/
def Inst.offCode (spill : Bool) (i : Inst) : Nat :=
  if i.pw.state = .faulted then 1
  else if i.ctxs.any (fun c => decide (c.2.map.state = 2)) then 2
  else if i.ctxs.any (fun c => c.2.live) && !spill then 3
  else if i.ctxs.any (fun c => decide (c.2.map.slot ≠ 0)) then 4
  else if i.offBusy then 5
  else 0

/-- Operations buffered but not applied are answered INSTANCE_OFF when the transition begins (R328). -/
def Inst.refuseBuffered (i : Inst) : Inst :=
  let os := (i.fab.frontEnd.filter (fun b => !b.refused)).map (fun b => b.op) ++ i.fab.chans.flatMap (fun c => c.waiting) ++ i.flt.waiters
  let j : Inst := { i with fab := { i.fab with frontEnd := [], partials := [], chans := i.fab.chans.map (fun c => { c with waiting := [], deferred := [] }) },
                           flt := { i.flt with waiters := [] } }
  os.foldl (fun (i : Inst) o => i.respond o.hdr o.body.code 0 (respOf St.instOff 0 0)) j

/-- A request for OFF judged at an awake or faulted instance (R327, R328). -/
def Inst.offJudge (spill : Bool) (i : Inst) : Inst :=
  let c := i.offCode spill
  let j := ({ i with pw := { i.pw with offFromReq := false } }).offResult c
  if c ≠ 0 then j
  else
    let k := j.setPState .goingOff
    (({ k with pw := { k.pw with offPhase := .drain, request := none } }).refuseBuffered).pump

/-- OFF_REQUEST (R327): a sleeping instance wakes first. In the other states the spec gives a request no result (log entry 39). -/
def Inst.offRequest (spill : Bool) (i : Inst) : Inst :=
  match i.pw.state with
  | .active => i.offJudge spill
  | .faulted => i.offJudge spill
  | .doze | .nap => ({ i with pw := { i.pw with offFromReq := true, offSpill := spill } }).wakeUp
  | _ => i

/-- Whether the drain has finished (R328). -/
def Inst.drained (i : Inst) : Bool := i.fab.cpl.isEmpty && i.cod.backlog.isEmpty

/-- OFF_DRAIN_DONE (R328). -/
def Inst.offDrainDone (i : Inst) : Inst :=
  if i.pw.state = .goingOff ∧ i.pw.offPhase = .drain ∧ i.drained = true then { i with pw := { i.pw with offPhase := .rollback } } else i

/-- OFF_DRAIN (R327, R328): the instance is ACTIVE again. -/
def Inst.offDrain (i : Inst) : Inst :=
  if i.pw.state = .goingOff ∧ i.pw.offPhase = .drain then
    let j := (i.offResult 6).setPState .active
    ({ j with pw := { j.pw with offPhase := .none, returnDue := false } }).pump
  else i

/-- OFF_ROLLBACK_DONE (R101, R328). -/
def Inst.offRollback (i : Inst) : Inst :=
  if i.pw.state = .goingOff ∧ i.pw.offPhase = .rollback then
    let j := i.rollbackAll i.cod.opens
    { j with pw := { j.pw with offPhase := .save } }
  else i

/-- What the save area keeps of a context (R328, R331); levels that only a command or a commit ends stay with it (log entry 40). -/
def CtxSt.saved (c : CtxSt) : CtxSt :=
  let r := CtxSt.freeCtx.run
  if c.live then
    { c with run := { r with step := c.run.step, evacuate := c.run.evacuate, paused := c.run.paused, halted := c.run.halted,
                             lastCmd := c.run.lastCmd, started := c.run.started, poolMin := c.run.poolMin },
             memb := { c.memb with rollback := false, amendT := [] } }
  else { CtxSt.freeCtx with run := { r with poolMin := c.run.poolMin }, user := c.user }

/-- The bytes of the valid-map spill, and of a save area (R60, R328; log entry 38). -/
def spillBytes : Nat × Nat := (Slot.spill * 4096, 3 * 2 ^ 20)
def saveArea (x : Nat) : Nat × Nat := ((mapCopySlot x + 1024) * 4096, 65536)

/-- OFF_SAVE_DONE (R328, R332, R354). -/
def Inst.offSave (i : Inst) : Inst :=
  if i.pw.state = .goingOff ∧ i.pw.offPhase = .save then
    let areas : List (Nat × Nat) := spillBytes :: saveArea 0 :: (i.ctxs.filter (fun c => c.2.live)).map (fun c => saveArea c.1)
    let j := areas.foldl (fun (i : Inst) (a : Nat × Nat) => i.freshLines a.1 a.2) i
    ({ j with saved := some { ctxs := j.ctxs.map (fun (c : Nat × CtxSt) => (c.1, c.2.saved)), params := j.opt.params, regs := j.ctl.regs },
              mem := { j.mem with spill := some j.mem.valid, preserved := none },
              pw := { j.pw with offPhase := .entering } }).lifeTrigger false
  else i

/-- Telemetry whose counters restart at zero; a loss of register settings takes the ring of R347 with it (R331). -/
def TelemSt.cleared (keep : Bool) (t : TelemSt) : TelemSt :=
  let u : TelemSt := { t with cnt := { live := [], delta := [], freeze := [] }, tallies := [], lastHead := List.replicate 128 0 }
  if keep then u else { u with stepBase := 0, stepSize := 0, stepHead := 0, stepTail := 0 }

/-- The scrubber's lap and its timers stopped as the instance goes OFF: the start of the lap gives way to the time it has run, and back
again at the return (R249). -/
def ScrubSt.halt (time : Nat) (s : ScrubSt) : ScrubSt := { s with startT := time - s.startT }

/-- The datapath and SRAM of an instance lost (R331): the AON section, the LOCK bits, the stack and, for OFF (`keep`), what the
save and the stack hold stay. -/
def Inst.cleared (keep : Bool) (i : Inst) : Inst :=
  let p := Inst.powerOn i.view.idx i.nonVol
  { p with
    view := i.view, pw := i.pw, boot := { i.boot with programs := [] }, mbox := i.mbox, hb := i.hb,
    ctl := { p.ctl with locks := i.ctl.locks, stalled := i.ctl.stalled },
    cmdq := if keep then { p.cmdq with base := i.cmdq.base } else p.cmdq,
    memb := if keep then { p.memb with reserve := i.memb.reserve } else p.memb,
    pool := if keep then { p.pool with active := i.pool.active } else p.pool,
    cod := if keep then { p.cod with ledger := i.cod.ledger, unledgered := i.cod.unledgered, damaged := i.cod.damaged } else p.cod,
    flt := { p.flt with records := i.flt.records, recCount := i.flt.recCount },
    mem := { i.mem with valid := [], parity := [], spill := if keep then i.mem.spill else none, staging := [], stagePoison := [] },
    scrub := if keep then i.scrub.halt i.view.time else p.scrub,
    telem := i.telem.cleared keep, saved := if keep then i.saved else none, free := i.free, out := i.out }

/-- The return begins (R329). -/
def Inst.startReturn (i : Inst) : Inst :=
  let j := i.setPState .restoring
  { j with pw := { j.pw with offPhase := .power, returnDue := false } }

/-- OFF_ENTERED (R328, R342): a return asked for meanwhile starts. -/
def Inst.offEntered (i : Inst) : Inst :=
  if i.pw.state = .goingOff ∧ i.pw.offPhase = .entering then
    let j := (i.setPState .off).cleared true
    let k : Inst := { j with pw := { j.pw with offPhase := .none, ready := false } }
    if k.pw.returnDue then k.startReturn else k
  else i

/-- RETURN_REQUEST (R329, R342). -/
def Inst.returnRequest (i : Inst) : Inst :=
  match i.pw.state with
  | .off => i.startReturn
  | .goingOff => { i with pw := { i.pw with returnDue := true } }
  | _ => i

/-- The pool with every buffer free, in ascending order (R318). -/
def Pool.thread (p : Pool) : Pool := { p with owned := [], free := List.range 512, threaded := true, rebuilding := false }

/-- RETURN_POWER_UP_DONE (R329): the event ring starts, RESTORED its first entry. -/
def Inst.returnPower (pll : Bool) (i : Inst) : Inst :=
  if i.pw.state = .restoring ∧ i.pw.offPhase = .power ∧ pll = true then
    ({ i with pw := { i.pw with offPhase := .image }, pool := i.pool.thread }).event 0x1002 none []
  else i

/-- A spilled valid map read back: all 512 slots of a line that fails count as written (R240). -/
def Inst.readSpill (m : List Nat) (i : Inst) : Inst × List Nat :=
  (i.dirtyLines spillBytes.1 spillBytes.2).foldl (fun (a : Inst × List Nat) ln =>
    let r := a.1.readLine false ln
    match r.2 with
    | some _ => (r.1, a.2)
    | none => (r.1, (List.range 512).foldl (fun v k => setBit (512 * (ln - Slot.spill * 64) + k) v) a.2)) (i, m)

/-- RETURN_STATE_RESTORED (R329, R240): valid map, save areas and register settings read back. -/
def Inst.returnState (us : List Upset) (i : Inst) : Inst :=
  let j := i.upsets us
  if j.pw.state ≠ .restoring ∨ j.pw.offPhase ≠ .state then j
  else
    let v := j.readSpill (j.mem.spill.getD [])
    let s := j.saved.getD { ctxs := [], params := [], regs := [] }
    let live := (s.ctxs.filter (fun c => c.2.live)).map Prod.fst
    let a := ((saveArea 0 :: live.map saveArea) ++ live.map (fun x => (mapCopySlot x * 4096, 4194304))).foldl
      (fun (a : Inst × Bool) (p : Nat × Nat) => let r := a.1.readSpan false p.1 p.2; (r.1, a.2 && r.2)) (v.1, true)
    if !a.2 then a.1.selfFault 0x10 Slot.mapRegion
    else
      let k := a.1
      { k with ctxs := s.ctxs, scrub := k.scrub.halt k.view.time, opt := { k.opt with params := s.params }, ctl := { k.ctl with regs := s.regs }, saved := none,
               mem := { k.mem with valid := v.2, spill := none }, pw := { k.pw with offPhase := .selfTest } }

/-- The end of a return (R329): every outbound channel is reset, and ranges stood in for are adopted again (R125). -/
def Inst.openReturn (i : Inst) : Inst :=
  let j := i.setPState .active
  let k : Inst := { j with pw := { j.pw with offPhase := .none, ready := true } }
  let peers := (k.ctxs.flatMap (fun c => match k.image c.1 with | some m => m.peers k.self | none => [])).eraseDups
  let n := peers.foldl (fun (i : Inst) h =>
    let c := i.modChan h (fun c => { c with resetDue := true, parked := false, offWait := false })
    match i.offerCtx h with | some x => c.offer x h | none => c) k
  ((n.ctxs.map Prod.fst).foldl (fun (i : Inst) x => i.adopt x) n).pump

/-- RETURN_TIMEOUT (R333). -/
def Inst.returnTimeout (i : Inst) : Inst := if i.pw.state = .restoring then i.selfFault 0x16 0 else i

/-- READY (R334). -/
def Inst.becomeReady (i : Inst) : Inst :=
  let j := i.setPState .active
  ({ j with pw := { j.pw with start := .ready, ready := true } }).event 0x1003 none [(24, 4, j.boot.version)]

/-- A run of the patterns passes where the CRC-64 of every result is the signature the sequencer image holds for it (R217; log
entry 144). -/
def testPasses (r : TestRun) : Bool := r.all (fun p => p.1 == p.2)

/-- The supply steps passed before the first mismatch, at most 15 (R217), from the runs at the steps below nominal supply. -/
def testSteps (steps : List TestRun) : Nat := min (steps.takeWhile testPasses).length 15

/-- SELF_TEST_DONE (R217, R333, R334, R339, R350). A test that is parked waits (R200). -/
def Inst.selfTestDone (nominal : TestRun) (steps : List TestRun) (i : Inst) : Inst :=
  let t := i.testTrigger
  if t = 0 || i.arrHolds .selfTest then i
  else
    let pass := testPasses nominal
    let n := if t = 3 then testSteps steps else i.arr.steps
    let w := b2n pass + 2 + 2 ^ 4 * n + 2 ^ 8 * t
    let j := ({ i with arr := { i.arr with lastTest := w } }).event 0x1A02 none [(20, 1, b2n pass), (21, 1, if t = 3 then n else 0), (22, 1, t)]
    if !pass then j.selfFault 0x18 0
    else match t with
      | 1 => if j.pw.state = .restoring then j.openReturn else j.becomeReady
      | 2 => { j with pw := { j.pw with trialTest := false, trialReady := true } }
      | _ => j.marginDone n

/-- POOL_REBUILD (R318): the free list is made again from the ownership entries; no owned buffer is lost. -/
def Inst.poolRebuild (i : Inst) : Inst :=
  if !i.pool.threaded || !i.running then i
  else
    let free := (List.range 512).filter (fun b => (i.pool.owned.find b).isNone)
    ({ i with pool := { i.pool with free := free, rebuilding := false } }).event 0x1E01 none [(20, 2, free.length)]

/-- The start-up phase a reset leads to: Clock onward (R334). -/
def Inst.phaseAfterReset (pll : Bool) (i : Inst) : StartPhase :=
  if i.pw.start = .epoch then .epoch else if pll then .sram else .clock

/-- A reset of the instance (R330, R331): one HEARTBEAT with STATE FAULTED to every partner, the table cleared, EPOCH one up.
Types: 0 instance, 1 warm, 2 warm with PRESERVE (R383). -/
def Inst.reset (kind : Nat) (pll : Bool) (i : Inst) : Inst :=
  let start := i.phaseAfterReset pll
  let j : Inst := { i with out := i.out ++ i.hb.partners.map (fun p => i.heartbeatTo 5 p.home) }
  let k := (j.setPState .resetting).cleared false
  { k with pw := { PowerSt.starting start with state := .resetting, resetType := some kind },
           hb := { k.hb with partners := [], epoch := (k.hb.epoch + 1) % 2 ^ 32, linkNotices := [] } }

/-- The valid map spilled for a warm reset with PRESERVE, or the spill of a completed Save kept (R332, R342). -/
def Inst.preserve (i : Inst) : Inst :=
  match i.pw.state with
  | .faulted => i
  | .goingOff | .off | .restoring =>
    match i.mem.spill with
    | some v => { i with mem := { i.mem with preserved := some v } }
    | none => i
  | _ =>
    let j := i.freshLines spillBytes.1 spillBytes.2
    { j with mem := { j.mem with preserved := some j.mem.valid } }

/-- SRAM_CLEAR_DONE (R318, R331, R334): the pool is threaded, and RESET is the first entry of the ring after a reset. -/
def Inst.sramClear (i : Inst) : Inst :=
  if i.pw.start ≠ .sram ∨ (i.pw.state ≠ .starting ∧ i.pw.state ≠ .resetting) then i
  else
    let j := i.setPState .starting
    let k : Inst := { j with pw := { j.pw with start := .image, resetType := none }, pool := j.pool.thread, mem := { j.mem with valid := [] } }
    match i.pw.resetType with
    | some n => k.event 0x1001 none [(20, 1, n)]
    | none => k

/-- Whether the datapath clock runs (R39, R321). -/
def Inst.clocked (i : Inst) : Bool :=
  match i.pw.state with
  | .active | .goingOff => true
  | .starting | .resetting => i.pw.start != .epoch && i.pw.start != .clock
  | .restoring => i.pw.offPhase != .power
  | _ => false

/-- EMERGENCY_SHUTDOWN (R333). -/
def Inst.emergency (i : Inst) : Inst := i.selfFault 0x19 0

/-- The die after a warm reset (R331): LOCK bits, the DET lock and register settings at reset; time base, rings and die counters
kept (log entry 41). -/
def Die.warmReset (d : Die) : Die :=
  { d with detLock := false, ctl := { d.ctl with regs := [], guards := [], locks := [] }, uart := (Die.powerOn).uart, pins := (Die.powerOn).pins, coldPriv := [] }

/-- The die without power (R342): what flash and the cold partition keep, nothing else. -/
def Die.dark (d : Die) : Die := { Die.powerOn with node := d.node, free := d.free }
def Inst.dark (idx : Nat) (i : Inst) : Inst := { Inst.powerOn idx i.nonVol with free := i.free }

/-- DOZE_AFTER. -/
def execDozeAfter (i : InstId) (s : State) : Host.Outcome State Fault Refusal := runInst i Inst.dozeAfter s

/-- NAP_AFTER. -/
def execNapAfter (i : InstId) (s : State) : Host.Outcome State Fault Refusal := runInst i Inst.napAfter s

/-- POWER_STATE_GRANT. -/
def execPowerStateGrant (i : InstId) (granted : Bool) (s : State) : Host.Outcome State Fault Refusal := runInst i (Inst.powerGrant granted) s

/-- SLEEP_ENTRY_DONE. -/
def execSleepEntryDone (i : InstId) (s : State) : Host.Outcome State Fault Refusal := runInst i Inst.entryDone s

/-- OFF_REQUEST. -/
def execOffRequest (i : InstId) (spill : Bool) (s : State) : Host.Outcome State Fault Refusal := runInst i (Inst.offRequest spill) s

/-- OFF_DRAIN_DONE. -/
def execOffDrainDone (i : InstId) (s : State) : Host.Outcome State Fault Refusal := runInst i Inst.offDrainDone s

/-- OFF_DRAIN. -/
def execOffDrain (i : InstId) (s : State) : Host.Outcome State Fault Refusal := runInst i Inst.offDrain s

/-- OFF_ROLLBACK_DONE. -/
def execOffRollbackDone (i : InstId) (s : State) : Host.Outcome State Fault Refusal := runInst i Inst.offRollback s

/-- OFF_SAVE_DONE. -/
def execOffSaveDone (i : InstId) (s : State) : Host.Outcome State Fault Refusal := runInst i Inst.offSave s

/-- OFF_ENTERED. -/
def execOffEntered (i : InstId) (s : State) : Host.Outcome State Fault Refusal := runInst i Inst.offEntered s

/-- RETURN_REQUEST. -/
def execReturnRequest (i : InstId) (s : State) : Host.Outcome State Fault Refusal := runInst i Inst.returnRequest s

/-- RETURN_POWER_UP_DONE. -/
def execReturnPowerUpDone (i : InstId) (s : State) : Host.Outcome State Fault Refusal :=
  runDie (fun d v => onInst i (Inst.returnPower d.pll) d v) s

/-- RETURN_STATE_RESTORED. -/
def execReturnStateRestored (i : InstId) (upsets : List Upset) (s : State) : Host.Outcome State Fault Refusal :=
  runInst i (Inst.returnState upsets) s

/-- RETURN_TIMEOUT. -/
def execReturnTimeout (i : InstId) (s : State) : Host.Outcome State Fault Refusal := runInst i Inst.returnTimeout s

/-- SELF_TEST_DONE. -/
def execSelfTestDone (i : InstId) (nominal : TestRun) (steps : List TestRun) (s : State) :
    Host.Outcome State Fault Refusal :=
  runInst i (Inst.selfTestDone nominal steps) s

/-- POOL_REBUILD. -/
def execPoolRebuild (i : InstId) (s : State) : Host.Outcome State Fault Refusal := runInst i Inst.poolRebuild s

/-- PLL_LOCK (R334). -/
def execPllLock (s : State) : Host.Outcome State Fault Refusal :=
  runDie (fun d v => onAll (fun i => if i.pw.start = .clock then { i with pw := { i.pw with start := .sram } } else i) { d with pll := true } v) s

/-- SRAM_CLEAR_DONE. -/
def execSramClearDone (i : InstId) (s : State) : Host.Outcome State Fault Refusal := runInst i Inst.sramClear s

/-- PLL_LOSS_OF_LOCK (R321, R333, R342). -/
def execPllLossOfLock (s : State) : Host.Outcome State Fault Refusal :=
  runDie (fun d v => onAll (fun i => if i.clocked then i.selfFault 0x14 0 else i) { d with pll := false } v) s

/-- DIE_POWER_ON (R330, R334): the die starts from what flash and the cold partition kept. On a powered die it is not an event. -/
def execDiePowerOn (s : State) : Host.Outcome State Fault Refusal :=
  match s.supply with
  | .stopped => .fault .engineStopped
  | .on => .next s
  | .off => .next { s with supply := .on }

/-- DIE_POWER_LOSS (R342): in any state; a stopped AON clock does not keep power from being lost. -/
def execDiePowerLoss (s : State) : Host.Outcome State Fault Refusal :=
  match s.supply with
  | .off => .next s
  | _ => .next { s with supply := .off, die := s.die.dark, insts := Vector.ofFn (fun k => Inst.dark k.val s.insts[k]) }

/-- AON_CLOCK_STOP (R321): the engine stops as a whole. -/
def execAonClockStop (s : State) : Host.Outcome State Fault Refusal :=
  match s.supply with
  | .off => .next s
  | _ => .next { s with supply := .stopped }

end Sys2Proof.Machine
end

