-- ==== Sys2Proof/Machine/Image.lean ====
section
/-! DEFINITION. A coding map image read from its bytes, and the checks of R67 in their order (R4, R6, R9, R53 to R57, R63 to R68,
R88, R97, R112, R116, R119, R147, R173, R192, R218, R268). -/

namespace Sys2Proof.Machine

/-- Half-open intervals in ascending order, empty ones left out. -/
def sortIv (l : List (Nat × Nat)) : List (Nat × Nat) := sortBy Prod.fst (l.filter (fun p => decide (p.1 < p.2)))

/-- Whether sorted intervals do not overlap. -/
def apartIv : List (Nat × Nat) → Bool
  | a :: b :: t => decide (a.2 ≤ b.1) && apartIv (b :: t)
  | _ => true

/-- Sorted intervals joined where they touch, last first. -/
def joinRev (acc : List (Nat × Nat)) (p : Nat × Nat) : List (Nat × Nat) :=
  match acc with
  | [] => [p]
  | q :: t => if p.1 ≤ q.2 then (q.1, max q.2 p.2) :: t else p :: q :: t

/-- The set a list of intervals covers, as its joined intervals. -/
def joinIv (l : List (Nat × Nat)) : List (Nat × Nat) := ((sortIv l).foldl joinRev []).reverse

/-- Whether no two intervals of a list overlap, and whether a list lies within another. -/
def disjointIv (l : List (Nat × Nat)) : Bool := apartIv (sortIv l)
def insideIv (l whole : List (Nat × Nat)) : Bool := joinIv (l ++ whole) == joinIv whole

/-- A directory entry: offset and record count of section `n` (R64). -/
def section_ (b : Bytes) (n : Nat) : Nat × Nat := (field (64 + 8 * n) 4 b, field (68 + 8 * n) 4 b)

/-- The records of a section of fixed-size records (R65). -/
def recsOfSection (b : Bytes) (n size : Nat) : List Bytes :=
  let s := section_ b n
  if s.2 = 0 then [] else piecesOf size ((b.drop s.1).take (size * s.2))

/-- Whether a section of fixed-size records lies within the image on an 8-byte boundary (R64). An empty one lies nowhere. -/
def sectionIn (b : Bytes) (n size : Nat) : Bool :=
  let s := section_ b n
  decide (s.2 = 0) || (decide (s.1 % 8 = 0) && decide (s.1 + size * s.2 ≤ b.length))

/-- Whether the given fields of a record are zero. -/
def zeroAt (r : Bytes) (l : List (Nat × Nat)) : Bool := l.all (fun p => field p.1 p.2 r == 0)

/-- The records of R65. -/
def classRecOf (r : Bytes) : ClassRec :=
  { id := field 0 1 r, kind := field 1 1 r, format := field 2 1 r, prot := field 3 1 r, role := field 4 1 r }
def layerRecOf (r : Bytes) : LayerRec :=
  { id := field 0 4 r, program := field 4 2 r, tformat := field 6 1 r, firstParam := field 8 8 r, paramCount := field 16 8 r,
    paramBlock := field 24 4 r }
def homeRecOf (r : Bytes) : HomeRec :=
  { home := { node := field 0 2 r, idx := field 2 1 r }, level := field 3 1 r, hops := field 4 1 r }
def runRecOf (r : Bytes) : RunRec :=
  { firstRange := field 0 8 r, count := field 8 4 r, cls := field 12 1 r, transition := field 13 1 r, homeId := field 14 2 r,
    stripe := field 16 4 r, position := field 20 1 r, firstRow := field 24 4 r, slotBase := field 28 4 r }
def extentRecOf (r : Bytes) : ExtentRec :=
  { inst := field 0 1 r, kind := field 1 1 r, position := field 2 1 r, stripe := field 4 4 r, firstRow := field 8 4 r,
    rowCount := field 12 4 r, slotBase := field 16 4 r }
def blockRecOf (r : Bytes) : BlockRec :=
  { layer := field 0 4 r, cls := field 4 1 r, chunks := field 6 2 r, first := field 8 8 r }
def windowRecOf (r : Bytes) : WindowRec :=
  { homeId := field 0 2 r, ops := field 2 2 r, stripe := field 4 4 r, firstRow := field 8 4 r, rowCount := field 12 4 r }

/-- The role an entry of a stripe must carry, by its place (R66). -/
def entryRole (g : Geom) (n : Nat) : Nat :=
  if n < g.k then 0 else if n < g.k + g.colonies then 1 else if n < g.k + g.colonies + g.r then 2 else 3

/-- Stripe records one after another: fields in range, entries in their order, reserved bytes zero (R66). None where one
breaks this or the section runs past the image. -/
def parseStripes : Nat → Bytes → Option (List StripeRec)
  | 0, _ => some []
  | n + 1, b =>
    let g : Geom := { k := field 4 1 b, g := field 5 1 b, r := field 6 1 b }
    if b.length < 16 ∨ g.k = 0 ∨ 192 < g.k ∨ g.g = 0 ∨ 16 < g.g ∨ 4 < g.r then none
    else
      let l := g.colonies
      let f := g.k + l + g.r + l
      if b.length < 16 + 4 * f ∨ 255 < g.k + l + g.r ∨ 63 < l + g.r ∨ zeroAt b [(7, 1), (12, 4)] = false then none
      else
        let raw := piecesOf 4 ((b.drop 16).take (4 * f))
        if (raw.mapIdx (fun k e => field 2 1 e == entryRole g k && field 3 1 e == 0)).all id then
          (parseStripes n (b.drop (16 + 4 * f))).map (fun t =>
            { id := field 0 4 b, geom := g, rows := field 8 4 b,
              entries := raw.map (fun e => { homeId := field 0 2 e, role := field 2 1 e }) } :: t)
        else none

/-- The header of an image (R64). -/
def mapHeadOf (b : Bytes) : MapHead :=
  { contract := field 4 4 b, version := field 8 4 b, bytes := field 12 4 b, ctx := field 16 1 b, flags := field 17 1 b,
    classCount := field 18 1 b, depth := field 19 1 b, clip := field 20 1 b, passes := field 21 1 b, baseStep := field 24 6 b,
    seed := slice 32 16 b, crc := BitVec.ofNat 64 (field 48 8 b) }

/-- Header fields in range (R64, R119). -/
def headOk (b : Bytes) : Bool :=
  let h := mapHeadOf b
  decide (1 ≤ h.version) && decide (h.version % 256 = 0) && decide (h.ctx < 64) && decide (h.flags < 8) && decide (1 ≤ h.classCount) &&
    decide (h.classCount ≤ 8) && decide (2 ≤ h.depth) && decide (h.depth ≤ 8) && decide (h.clip ≤ 2) &&
    (h.passes == 9 || h.passes == 6) && zeroAt b [(22, 2), (30, 2), (56, 8)]

/-- An image from its bytes, or none where a section lies outside it or a record of STRIPES is out of range (R64 to R66). -/
def parseImage (b : Bytes) : Option MapImage :=
  if [(0, 8), (1, 32), (2, 8), (4, 32), (5, 24), (6, 16), (7, 16)].all (fun p => sectionIn b p.1 p.2) then
    let s := section_ b 3
    if s.2 ≠ 0 ∧ (s.1 % 8 ≠ 0 ∨ b.length < s.1) then none
    else (parseStripes s.2 (b.drop s.1)).map (fun ss =>
      { head := mapHeadOf b, classes := (recsOfSection b 0 8).map classRecOf, layers := (recsOfSection b 1 32).map layerRecOf,
        homes := (recsOfSection b 2 8).map homeRecOf, stripes := ss, runs := (recsOfSection b 4 32).map runRecOf,
        extents := (recsOfSection b 5 24).map extentRecOf, blocks := (recsOfSection b 6 16).map blockRecOf,
        windows := (recsOfSection b 7 16).map windowRecOf })
  else none

/-- Reserved bytes of the fixed-size records (R65); those of the CLASSES and LAYERS of a release image, which R53 leaves unused, are
not judged (log entry 136). -/
def reservedOk (release : Bool) (b : Bytes) : Bool :=
  (release || ((recsOfSection b 0 8).all (fun r => zeroAt r [(5, 3)]) && (recsOfSection b 1 32).all (fun r => zeroAt r [(7, 1), (28, 4)]))) &&
    (recsOfSection b 2 8).all (fun r => zeroAt r [(5, 3)]) && (recsOfSection b 4 32).all (fun r => zeroAt r [(21, 3)]) &&
    (recsOfSection b 5 24).all (fun r => zeroAt r [(3, 1), (20, 4)]) && (recsOfSection b 6 16).all (fun r => zeroAt r [(5, 1)])

/-- Whether a list of numbers has no repeat. -/
def distinct (l : List Nat) : Bool := l.eraseDups.length == l.length

/-- Fields of CLASSES in range, SHADOW classes as R112 has them (R54, R65). -/
def MapImage.classFields (m : MapImage) : Bool :=
  m.classes.length == m.head.classCount && distinct (m.classes.map (fun c => c.id)) &&
    m.classes.all (fun c => decide (c.id < 8) && decide (c.kind ≤ 1) &&
      [0x00, 0x01, 0x02, 0x03, 0x10, 0x11, 0x12].contains c.format && decide (c.prot ≤ 2) && decide (c.role ≤ 1) &&
      (c.prot != 1 || (c.kind == 0 && c.role == 1 && [0x00, 0x10, 0x01, 0x11].contains c.format)))

/-- A transport format byte that R218 defines. -/
def tformatOk (t : Nat) : Bool := decide (1 ≤ t % 16) && decide (t % 16 ≤ 8) && decide (t / 16 % 8 ≤ 5)

/-- Layers in ascending order, each on a multiple of W, none overlapping the next (R56, R65). -/
def layersApart (w : Nat) : List LayerRec → Bool
  | a :: b :: t => decide (a.firstParam + a.paramCount ≤ b.firstParam) && decide (a.firstParam % w = 0) && layersApart w (b :: t)
  | [a] => decide (a.firstParam % w = 0)
  | [] => true

/-- Whether a layer's program is in the active program image and names only ELEMENT classes of the context (R173). -/
def MapImage.programOk (m : MapImage) (ps : List Program) (id : Nat) : Bool :=
  match ps.find? (fun p => p.id = id) with
  | some p => (bitsSet 8 p.classMask).all (fun c => m.elements.any (fun r => r.id == c))
  | none => false

/-- Fields of LAYERS in range (R65, R173, R182, R218). -/
def MapImage.layerFields (m : MapImage) (ps : List Program) : Bool :=
  layersApart m.width m.layers && distinct (m.layers.map (fun l => l.id)) &&
    m.layers.all (fun l => decide (l.firstParam + l.paramCount ≤ 2 ^ 48) && decide (l.paramBlock ≤ 31) && tformatOk l.tformat &&
      m.programOk ps l.program)

/-- Fields of STRIPES that name homes, and stripe identities (R66). -/
def MapImage.stripeFields (m : MapImage) : Bool :=
  distinct (m.stripes.map (fun s => s.id)) &&
    m.stripes.all (fun s => decide (s.id ≠ 0xFFFFFFFF) && s.entries.all (fun e => decide (e.homeId < m.homes.length)))

/-- Fields of a run: its class, its home, and a stripe position that has that home, or the NONE form (R63, R65). -/
def MapImage.runFields (m : MapImage) (r : RunRec) : Bool :=
  decide (r.transition ≤ 3) && decide (r.homeId < m.homes.length) &&
    (match m.cls r.cls with
     | none => false
     | some c =>
       if r.stripe = 0xFFFFFFFF then c.prot == 2
       else c.prot != 2 && (match m.stripe r.stripe with
         | some s => decide (r.position < s.geom.k) && m.fragHome s.id 0 r.position == m.homeAt r.homeId
         | none => false))

/-- Fields of an extent: a fragment of a stripe of the image (R65). -/
def MapImage.extentFields (m : MapImage) (e : ExtentRec) : Bool :=
  decide (e.inst < 8) && decide (e.kind ≤ 3) &&
    (match m.stripe e.stripe with
     | none => false
     | some s =>
       match e.kind with
       | 0 => decide (e.position < s.geom.k)
       | 2 => decide (1 ≤ e.position) && decide (e.position ≤ s.geom.r)
       | _ => decide (e.position < s.geom.colonies))

/-- Fields of a block record (R65). -/
def MapImage.blockFields (m : MapImage) (b : BlockRec) : Bool :=
  decide (1 ≤ b.chunks) && decide (b.chunks ≤ 256) && (m.layer b.layer).isSome &&
    (match m.cls b.cls with | some c => c.kind == 1 | none => false)

/-- What is fixed for the life of a context (R53). -/
def sameLife (a b : MapImage) : Bool :=
  decide (a.head.seed = b.head.seed) && decide (a.head.baseStep = b.head.baseStep) &&
    decide (sortBy (fun c => c.id) a.classes = sortBy (fun c => c.id) b.classes) &&
    decide (a.layers.map (fun l => (l.id, l.firstParam, l.paramCount)) = b.layers.map (fun l => (l.id, l.firstParam, l.paramCount)))

/-- A stripe of the committed map keeps its positions (R147): none is removed, and no home of it is found at another position
(log entry 135). -/
def keepsStripes (old new : MapImage) : Bool :=
  old.stripes.all (fun s => match new.stripe s.id with
    | some t => s.geom.g == t.geom.g && s.geom.r == t.geom.r && decide (s.geom.k ≤ t.geom.k) &&
        (List.range s.geom.k).all (fun p => match old.fragHome s.id 0 p with
          | some h => (List.range t.geom.k).all (fun n => n == p || new.fragHome t.id 0 n != some h)
          | none => true)
    | none => true)

/-- The images that would be LIVE if this one were committed. -/
def Inst.imagesWith (x : Nat) (m : MapImage) (i : Inst) : List MapImage :=
  (if m.release then [] else [m]) ++ (i.ctxs.filter (fun c => c.1 ≠ x && c.2.live)).filterMap (fun c => c.2.map.image)

/-- The bounds on heartbeat partners and on peer homes (R116, R268). -/
def Inst.peersFit (x : Nat) (m : MapImage) (i : Inst) : Bool :=
  let ms := i.imagesWith x m
  decide (((ms.flatMap (fun n => n.partners i.self)).eraseDups).length ≤ 256) &&
    decide (((ms.flatMap (fun n => n.peers i.self)).eraseDups).length ≤ 1024)

/-- BAD_FIELD does not apply (R67). -/
def Inst.fieldsOk (x : Nat) (b : Bytes) (m : MapImage) (i : Inst) : Bool :=
  headOk b && reservedOk m.release b && decide (m.head.ctx = x) &&
    (if m.release then m.runs.isEmpty && m.extents.isEmpty && m.windows.isEmpty
     else m.classFields && m.layerFields i.boot.programs && m.blocks.all m.blockFields) &&
    m.homes.all (fun h => decide (h.level ≤ 1)) && m.stripeFields && m.runs.all m.runFields && m.extents.all m.extentFields &&
    m.windows.all (fun w => decide (w.homeId < m.homes.length)) &&
    (match i.image x with
     | some o => (m.release || sameLife o m) && keepsStripes o m
     | none => true) && i.peersFit x m

/-- R54. -/
def MapImage.classesOk (m : MapImage) : Bool :=
  (match m.classes.filter (fun c => c.role = 0) with
   | [c] => c.kind == 0 && c.format == 0 && c.prot == 0
   | _ => false) &&
    m.classes.all (fun c => c.kind == 0 || c.format == 0x00 || c.format == 0x10)

/-- R9: all but global parity holders are FULL members. -/
def MapImage.levelsOk (m : MapImage) : Bool :=
  m.stripes.all (fun s => s.entries.all (fun e => e.role == 2 || (match m.homes[e.homeId]? with | some h => h.level == 1 | none => false)))

/-- The homes of a stripe's fragments (R66). -/
def MapImage.fragHomes (m : MapImage) (s : StripeRec) : List Home :=
  (s.entries.filter (fun e => e.role ≠ 3)).filterMap (fun e => m.homeAt e.homeId)

/-- R37, R88: no two fragments on one node, and no ledger holder on the node of one unless it is the local parity holder. -/
def MapImage.diesOk (m : MapImage) : Bool :=
  m.stripes.all (fun s =>
    let nodes := (m.fragHomes s).map (fun h => h.node)
    distinct nodes && (List.range s.geom.colonies).all (fun c =>
      match m.fragHome s.id 4 c with
      | some h => !nodes.contains h.node || m.fragHome s.id 1 c == some h
      | none => true))

/-- COLONY_HOPS (R67, R88): judged from HOPS for the colonies this die has a home in. -/
def MapImage.hopsOk (m : MapImage) (node : Nat) : Bool :=
  m.wide || m.stripes.all (fun s => (List.range s.geom.colonies).all (fun c =>
    let ids := (s.entries.zipIdx.filter (fun p =>
      (decide (p.1.role = 0) && decide (s.geom.colonyOf p.2 = c)) || (decide (p.1.role = 1) && decide (p.2 = s.geom.k + c)) ||
        (decide (p.1.role = 3) && decide (p.2 = s.geom.k + s.geom.colonies + s.geom.r + c)))).map (fun p => p.1.homeId)
    let hs := ids.filterMap (fun n => m.homes[n]?)
    !hs.any (fun h => decide (h.home.node = node)) || hs.all (fun h => decide (h.hops ≤ 1))))

/-- The ranges or block chunks of a run, half open. -/
def RunRec.span (r : RunRec) : Nat × Nat := (r.firstRange, r.firstRange + r.count)

/-- The runs of the ELEMENT classes. -/
def MapImage.elementRuns (m : MapImage) : List RunRec := m.runs.filter (fun r => m.elements.any (fun c => c.id == r.cls))

/-- The ranges of a layer, half open (R56). -/
def MapImage.layerSpan (m : MapImage) (l : LayerRec) : Nat × Nat := (m.layerFirst l, m.layerFirst l + m.layerCount l)

/-- A block's home rule (R57): one home, that homes a range of the block's layer. -/
def MapImage.blockHomeOk (m : MapImage) (b : BlockRec) : Bool :=
  let hs := ((m.runs.filter (fun r => decide (r.cls = b.cls) && meetIv r.span (b.first, b.first + b.chunks))).map (fun r => m.homeAt r.homeId)).eraseDups
  match hs with
  | [] => true
  | [h] => m.elementRuns.any (fun r => m.homeAt r.homeId == h &&
      (match m.layer b.layer with | some l => meetIv r.span (m.layerSpan l) | none => false))
  | _ => false

/-- The tiles of a preconditioned layer (R192, third rule): every range at the block's home, MASTER in one stripe at one
position. Judged where the layer's parameter block is loaded (log entry 42). -/
def MapImage.tilesOk (m : MapImage) (l : LayerRec) (w : PcWords) : Bool :=
  !w.on || w.tr * w.tc < m.width || l.paramCount % (w.tr * w.tc) ≠ 0 ||
    (let n := w.tr * w.tc / m.width
     ((m.layerBlocks l.id w.factorCls).zipIdx).all (fun p =>
       let t : Nat × Nat := (m.layerFirst l + p.2 * n, m.layerFirst l + (p.2 + 1) * n)
       let home := (m.runOf w.factorCls p.1.first).bind (fun r => m.homeAt r.homeId)
       let hit := m.elementRuns.filter (fun r => meetIv r.span t)
       hit.all (fun r => m.homeAt r.homeId == home) &&
         decide ((((hit.filter (fun r => r.cls = m.master)).map (fun r => (r.stripe, r.position))).eraseDups).length ≤ 1)))

/-- RANGE_SPLIT does not apply (R57, R192). -/
def Inst.splitOk (x : Nat) (m : MapImage) (i : Inst) : Bool :=
  let rs := m.elementRuns
  rs.all (fun a => rs.all (fun b => !meetIv a.span b.span || m.homeAt a.homeId == m.homeAt b.homeId)) &&
    m.blocks.all m.blockHomeOk &&
    m.layers.all (fun l => match i.paramBlock x l.paramBlock with | some b => m.tilesOk l (pcWords b) | none => true)

/-- RUN_COVER does not apply (R63, R67). -/
def MapImage.coverOk (m : MapImage) : Bool :=
  let spans := fun (c : Nat) => (m.runs.filter (fun r => r.cls = c)).map RunRec.span
  let all := joinIv (m.elementRuns.map RunRec.span)
  m.elements.all (fun c => disjointIv (spans c.id) && joinIv (spans c.id) == all) &&
    m.blocks.all (fun b =>
      let hit := m.runs.filter (fun r => decide (r.cls = b.cls) && meetIv r.span (b.first, b.first + b.chunks))
      hit.length == 1 && hit.all (fun r => decide (r.firstRange ≤ b.first) && decide (b.first + b.chunks ≤ r.firstRange + r.count))) &&
    insideIv (m.elementRuns.map RunRec.span) (m.layers.map m.layerSpan) &&
    m.runs.all (fun r => decide (r.stripe = 0xFFFFFFFF) || (match m.stripe r.stripe with
      | some s => decide (r.firstRow + r.count * m.perRange r.cls ≤ s.rows)
      | none => false))

/-- Slots a map uses at an instance of this die, half open (R63, R97). -/
def MapImage.slotIv (m : MapImage) (h : Home) : List (Nat × Nat) := (m.slotSpans h).map (fun s => (s.1, s.1 + s.2))

/-- NO_SPACE does not apply (R65, R67): every slot of the image lies in the context pool of its instance, apart from every other
slot of the image and from those of the other contexts' maps that this instance holds, committed or staged (log entry 43). -/
def Inst.spaceOk (x : Nat) (m : MapImage) (i : Inst) : Bool :=
  let maps := (i.ctxs.filter (fun c => c.1 ≠ x)).flatMap (fun c => c.2.map.image.toList ++ c.2.map.staged.toList)
  (List.range 8).all (fun n =>
    let h : Home := { i.self with idx := n }
    let mine := m.slotIv h
    let others := maps.flatMap (fun o => o.slotIv h)
    mine.all (fun p => decide (p.2 ≤ i.view.bases.getD n 0) && others.all (fun q => !meetIv p q)) && disjointIv mine)

/-- BAD_WINDOW does not apply (R67): the target is a member of the stripe and the rows lie in it. -/
def MapImage.windowsOk (m : MapImage) : Bool :=
  m.windows.all (fun w => match m.stripe w.stripe with
    | some s => s.entries.any (fun e => m.homeAt e.homeId == m.homeAt w.homeId) && decide (w.firstRow + w.rowCount ≤ s.rows)
    | none => false)

/-- DET_VIOLATION (R67). -/
def MapImage.detBad (m : MapImage) : Bool :=
  m.detStrict && ((!m.release && m.classes.any (fun c => c.prot == 1)) || m.head.clip == 2 || m.head.passes == 6)

/-- UNSAFE_MOVE (R67): ranges of a run homed on this die that another home takes without a mark. -/
def movesUnsafe (old new : MapImage) (node : Nat) : Bool :=
  old.runs.any (fun r => match old.homeAt r.homeId with
    | some h => decide (h.node = node) && new.runs.any (fun n => n.cls == r.cls && meetIv n.span r.span && n.transition == 0 &&
        new.homeAt n.homeId != some h)
    | none => false)

/-- STALE_VERSION (R67). -/
def staleVersion (old new : MapImage) : Bool :=
  decide (new.head.version < old.head.version) || (new.head.version == old.head.version && decide (new.head.crc ≠ old.head.crc))

/-- A chain of checks: the code of the first that fails. -/
def firstBad : List (Bool × Nat) → Option Nat
  | [] => none
  | (ok, c) :: t => if ok then firstBad t else some c

/-- The checks that need the image's records, in table order from BAD_FIELD on (R67). -/
def Inst.recordChecks (x : Nat) (b : Bytes) (m : MapImage) (i : Inst) : Option Nat :=
  let node := i.self.node
  firstBad
    [(i.fieldsOk x b m, 0x06), (m.release || m.classesOk, 0x07),
     (m.homes.all (fun h => decide (h.home.node ≠ node) || decide (h.home.idx < 8)), 0x08), (m.levelsOk, 0x09), (m.diesOk, 0x0A),
     (m.hopsOk node, 0x0B), (m.release || i.splitOk x m, 0x0C), (m.coverOk, 0x0D), (i.spaceOk x m, 0x0E), (m.windowsOk, 0x0F),
     (!m.detBad, 0x10), (!(i.view.detLock && !m.detStrict), 0x11),
     (match i.image x with | some o => !staleVersion o m | none => true, 0x12),
     (match i.image x with | some o => !movesUnsafe o m node | none => true, 0x13)]

/-- The checks of R67 up to UNSAFE_MOVE on the bytes read from a source of `len` bytes: the first code that fails, or the image. One
too short for the header of R64 has its fields outside it (log entry 136). -/
def Inst.checkImage (x len : Nat) (b : Bytes) (i : Inst) : Nat ⊕ MapImage :=
  let zeroed := b.take 48 ++ List.replicate 8 0 ++ b.drop 56
  if field 0 4 b ≠ 0x4D53434A ∨ field 12 4 b ≠ len then .inl 0x01
  else if 4194304 < len ∨ len % 64 ≠ 0 then .inl 0x02
  else if (crc64 zeroed).toNat ≠ field 48 8 b then .inl 0x03
  else if field 6 2 b ≠ 1 ∨ field 4 2 b ≠ 0 then .inl 0x04
  else if (i.ctx x).map.state = 2 then .inl 0x05
  else if b.length < 128 then .inl 0x06
  else match parseImage b with
    | none => .inl 0x06
    | some m => match i.recordChecks x b m with
      | some c => .inl c
      | none => .inr m

/-- The staging slot after a load that passed every check, and the load's code (R67, R68). A barred version is refused with
MAP_CONFLICT whatever the slot is, COMMITTING included, where R68 gives SUPERSEDED too (log entry 136). -/
def stageSlot (m : MapImage) (c : CtxMap) (live : Bool) : CtxMap × Nat :=
  let same := fun (o : MapImage) => o.head.version == m.head.version && decide (o.head.crc = m.head.crc)
  if live && (match c.image with | some o => same o | none => false) then (c, 0x16)
  else if c.barred.contains m.head.version then (c, 0x14)
  else match c.slot, c.staged with
    | 0, _ => ({ c with slot := 1, staged := some m }, 0x00)
    | 1, some s =>
      if same s then (c, 0x16)
      else if s.head.version = m.head.version then ({ c with slot := 0, staged := none, barred := c.barred ++ [m.head.version] }, 0x14)
      else if s.head.version < m.head.version then ({ c with staged := some m }, 0x00)
      else (c, 0x15)
    | _, _ => (c, 0x15)

end Sys2Proof.Machine
end

