-- ==== Sys2Proof/Machine/Maps.lean ====
section
/-! DEFINITION. MAP_LOAD, the commit of a map, its commit point, the roll-back that follows it, and the release of a context
(R67 to R73, R102, R111, R119, R143 to R147, R151, R152, R157, R158, R161 to R164, R332). -/

namespace Sys2Proof.Machine

/-- Homes named as HOME_ID of ARRIVING runs (R144, R164). -/
def MapImage.arriving (m : MapImage) : List Home :=
  ((m.runs.filter (fun r => r.transition = 1)).filterMap (fun r => m.homeAt r.homeId)).eraseDups

/-- Whether a run carries a mark (R144). -/
def MapImage.marked (m : MapImage) : Bool := m.runs.any (fun r => r.transition != 0)

/-- The mark of a range: that of its MASTER run (R144). -/
def MapImage.markOf (m : MapImage) (q : Nat) : Nat := match m.runOf m.master q with | some r => r.transition | none => 0
def MapImage.movesRange (m : MapImage) (q : Nat) : Bool := m.markOf q == 1 || m.markOf q == 2

/-- The ranges that move to another home (R144). -/
def MapImage.moves (m : MapImage) : List (Nat × Home) := m.rangesOf (fun r => r.transition == 1 || r.transition == 2)

/-- The roles of an instance's home: stripe, role and index (R66). -/
def MapImage.rolesOf (m : MapImage) (h : Home) : List (Nat × Nat × Nat) :=
  m.stripes.flatMap (fun s =>
    let has := fun (role index : Nat) => m.fragHome s.id role index == some h
    ((List.range s.geom.k).filter (has 0)).map (fun n => (s.id, 0, n)) ++
      ((List.range s.geom.colonies).filter (has 1)).map (fun n => (s.id, 1, n)) ++
      (((List.range s.geom.r).map (· + 1)).filter (has 2)).map (fun n => (s.id, 2, n)) ++
      ((List.range s.geom.colonies).filter (has 4)).map (fun n => (s.id, 4, n)))
def MapImage.holdsLedger (m : MapImage) (h : Home) : Bool := (m.rolesOf h).any (fun r => r.2.1 == 4)

/-- Whether an image drops a mark that the committed one carries (R144, R158). -/
def dropsMark (old new : MapImage) : Bool :=
  old.runs.any (fun r => r.transition != 0 &&
    !insideIv [r.span] ((new.runs.filter (fun n => n.cls == r.cls && n.transition != 0)).map RunRec.span))

/-- Whether an image would end a transition that is open here (R158): it drops a mark, a stripe that a doubly coded range uses, or an
extent that holds a BUILDING row. -/
def Inst.endsTransition (x : Nat) (n : MapImage) (i : Inst) : Bool :=
  (match i.image x with | some o => dropsMark o n | none => false) ||
    i.memb.dual.any (fun d => decide (d.ctx = x) && d.frags.any (fun f => (n.stripe f.2.stripe).isNone)) ||
    i.cod.building.any (fun b => decide (b.ctx = x) && (n.heldRow i.view.idx b.frag).isNone)

/-- Whether an image gives this instance a run, an extent or a role that the committed map did not (R161). -/
def Inst.givesNew (x : Nat) (n : MapImage) (i : Inst) : Bool :=
  let runs := fun (m : MapImage) (c : Nat) =>
    (m.runs.filter (fun r => r.cls == c && m.homeAt r.homeId == some i.self)).map RunRec.span
  match i.image x with
  | none => !(n.rolesOf i.self).isEmpty || n.runs.any (fun r => n.homeAt r.homeId == some i.self) ||
      n.extents.any (fun e => e.inst == i.view.idx)
  | some o =>
    !n.classes.all (fun c => insideIv (runs n c.id) (runs o c.id)) ||
      !(n.extents.filter (fun e => e.inst == i.view.idx)).all (fun e => o.extents.any (fun f =>
        f.inst == e.inst && f.kind == e.kind && f.position == e.position && f.stripe == e.stripe &&
          decide (f.firstRow ≤ e.firstRow) && decide (e.firstRow + e.rowCount ≤ f.firstRow + f.rowCount))) ||
      !(n.rolesOf i.self).all (fun r => (o.rolesOf i.self).contains r)

/-- Whether an operation is caravan traffic (R145). -/
def OpOwner.caravan : OpOwner → Bool
  | .push _ => true
  | .put _ => true
  | .cutover _ _ => true
  | .forward => true
  | _ => false

/-- Whether work keeps a context from its release: pending gradients, coding lag, or a caravan with a range to move, a push owed or
an operation not yet answered (R69). -/
def Inst.releaseBusy (x : Nat) (i : Inst) : Bool :=
  i.opt.work.any (fun w => decide (w.ctx = x) && (w.stage == .pending || w.stage == .updating)) ||
    i.cod.backlog.any (fun r => r.chunk.ctx = x) || i.memb.moving.any (fun m => m.ctx = x) ||
    i.memb.pushes.any (fun p => p.chunk.ctx = x) || i.fab.all.any (fun o => decide (o.ctx = x) && o.owner.caravan)

/-- COMMIT_RESULT of a commit (R69, R158, R161, R371). -/
def Inst.commitCode (x low : Nat) (i : Inst) : Nat :=
  let c := i.ctx x
  if c.map.slot = 2 then 5
  else match c.map.slot, c.map.staged with
    | 1, some n =>
      if n.head.version % 2 ^ 16 ≠ low then 4
      else if n.release && i.releaseBusy x then 6
      else if i.transitionOpen x && i.endsTransition x n then 7
      else if (i.pw.evacuate || c.run.evacuate) && i.givesNew x n then 8
      else 1
    | _, _ => 3

/-- A guarded write of JCS_MAP_COMMIT that was applied (R69): the result, and whether it was accepted. -/
def Inst.mapCommit (init : Nat) (v : Word) (i : Inst) : Inst × Bool :=
  let x := bits v.toNat 5 0
  let code := i.commitCode x (bits v.toNat 31 16)
  let j := i.modMap x (fun m => { m with commitResult := code, slot := if code = 1 then 2 else m.slot })
  if code = 1 then (j, true) else (j.eventBy 0x1103 0x11 (some x) init [(20, 1, code)], false)

/-- The map words at a commit point (R68, R70): the slot EMPTY, the committed copy the staged image. -/
def CtxMap.committed (n : MapImage) (m : CtxMap) : CtxMap :=
  { m with image := some n, staged := none, slot := 0, commitResult := 2, state := if n.release then 2 else 1,
           barred := m.barred.filter (fun b => decide (n.head.version ≤ b)) }

/-- What every later step of a commit point needs of the state before it: the image, whom each range was served as, the lost
set, and whether a fence lifts. -/
structure Before where
  old    : Option MapImage
  inst   : Inst
  rejoin : Bool
  deriving DecidableEq, Repr

/-- As whom a range was served; a fenced or offline context served none (R123). -/
def Before.served (b : Before) (x q : Nat) : Option (Option Home) :=
  let m := (b.inst.ctx x).memb
  if m.fenced || m.offline then none else b.inst.serves x q

/-- The lost set carried over: homes the image still names and does not bring back (R119, R164). A waiting list that now fits is
added, in its order, unless it has once filled (R120). -/
def Inst.carryLost (x : Nat) (n : MapImage) (i : Inst) : Inst :=
  let keep := fun (l : LostHome) => n.names l.home && !n.arriving.contains l.home
  let m := (i.ctx x).memb
  let lost := m.lost.filter keep
  let wait := m.waiting.filter (fun w => keep w.1)
  let fits := !m.waitFull && decide (lost.length + wait.length ≤ 255)
  let j := i.modMemb x (fun m => { m with lost := lost, waiting := if fits then [] else wait, saturated := m.saturated && !fits,
                                          amendT := m.amendT.filter (fun a => lost.any (fun l => l.home = a.1)) })
  if fits then wait.foldl (fun i w => i.amend x w.1 (if w.2 = i.self then w.1.cause else 0x06) (w.2 = i.self) w.2) j else j

/-- What the stand-ins of later losses need of the map a commit replaces: the image before the transitions that go on (R152, R159). -/
def Inst.prevImage (x : Nat) (n : MapImage) (i : Inst) : Option (MapImage × List LostHome) :=
  match i.image x with
  | none => none
  | some o =>
    let now := some (o, (i.ctx x).memb.lost)
    if i.transitionOpen x || (o.marked && n.marked) then (i.ctx x).memb.prev.orElse (fun _ => now) else now

/-- The returning home itself (R164): the fence lifts, its ledger starts empty. -/
def Inst.rejoinSelf (x : Nat) (i : Inst) : Inst :=
  let j := i.modMemb x (fun m => { m with fenced := false, offline := false, ledgerEmpty := true, floor := none })
  { j with cod := { j.cod with ledger := j.cod.ledger.filter (fun h => h.ctx ≠ x), opens := j.cod.opens.filter (fun o => o.ctx ≠ x) } }

/-- The slots of an instance's parity and shadow extents (R164). -/
def MapImage.paritySpans (m : MapImage) (inst : Nat) : List (Nat × Nat) :=
  (m.extents.filter (fun e => e.inst == inst && e.kind != 0)).map (fun e => (e.slotBase, m.extentSlots e))

/-- A ledger holder of the new map that was none before starts empty (R111, R138). -/
def Inst.newLedger (x : Nat) (b : Before) (n : MapImage) (i : Inst) : Inst :=
  let was := match b.old with | some o => o.holdsLedger i.self | none => !n.marked
  if n.holdsLedger i.self && !was then i.modMemb x (fun m => { m with ledgerEmpty := true, floor := none }) else i

/-- The caravans of a context after a commit (R145): one that has the same destination and stand-in goes on. -/
def Inst.moveTo (x : Nat) (b : Before) (n : MapImage) (q : Nat) (dst : Home) (i : Inst) : Option Moving :=
  match b.served x q with
  | none => none
  | some st =>
    if dst = i.self then none
    else match b.inst.movingOf x q with
      | some v => if v.dst = dst ∧ v.standin = st then some v else some (fresh st)
      | none => some (fresh st)
where fresh (st : Option Home) : Moving :=
  { ctx := x, q := q, dst := dst, standin := st,
    slots := if st.isSome then [] else (n.chunksOf x q).filterMap (fun c => (b.inst.chunkSlot c).map (fun s => (c, s))),
    sent := [], probe := isLost (b.inst.ctx x).memb.lost dst, full := [], owed := [], unacked := 0, cutSent := false,
    attempts := 0, faulted := false }

/-- A range that another home sources: the home that served it under the previous map (R145). -/
def Before.remote (b : Before) (x q : Nat) (dst : Home) : Option Remote :=
  if (b.served x q).isSome then none
  else
    let was := match b.inst.memb.remote.find? (fun r => decide (r.ctx = x) && decide (r.q = q)) with
      | some r => some (r.home, r.gone)
      | none => (b.old.bind (fun o => o.homeOf q)).map (fun h => (h, false))
    was.bind (fun w => if w.1 = dst then none else
      some { ctx := x, q := q, home := w.1, gone := w.2 || isLost (b.inst.ctx x).memb.lost w.1, dst := dst })

/-- Sources, destinations and departed ranges under the new map (R143 to R145). -/
def Inst.newMoves (x : Nat) (b : Before) (n : MapImage) (i : Inst) : Inst :=
  let mv := n.moves.filterMap (fun p => i.moveTo x b n p.1 p.2)
  let inc := (n.moves.filter (fun p => p.2 = i.self && (b.served x p.1).isNone)).map (fun p => (x, p.1))
  { i with memb := { i.memb with
      moving := i.memb.moving.filter (fun m => m.ctx ≠ x) ++ mv,
      remote := i.memb.remote.filter (fun r => r.ctx ≠ x) ++ n.moves.filterMap (fun p => b.remote x p.1 p.2),
      incoming := i.memb.incoming.filter (fun p => p.1 ≠ x) ++ inc,
      departed := i.memb.departed.filter (fun d => d.1 ≠ x || (n.movesRange d.2.1 && n.homeOf d.2.1 != some i.self)),
      stopped := i.memb.stopped.filter (· ≠ x) } }

/-- The old fragments a chunk keeps beside its new one (R146). -/
def Before.oldFrags (b : Before) (n : MapImage) (c : ChunkId) : List FragId :=
  ((b.inst.chunkFrags c).filter (fun f => (n.stripe f.stripe).isSome && n.fragOf c.cls c.q c.k != some f)).eraseDups

/-- The doubly coded ranges of a context after a commit (R146). -/
def Inst.newDual (x : Nat) (b : Before) (n : MapImage) (i : Inst) : Inst :=
  let ds := (n.rangesOf (fun _ => true)).filterMap (fun p =>
    let fs := (n.chunksOf x p.1).flatMap (fun c => (b.oldFrags n c).map (fun f => (c, f)))
    if fs.isEmpty then none else some ({ ctx := x, q := p.1, frags := fs } : Dual))
  { i with memb := { i.memb with dual := i.memb.dual.filter (fun d => d.ctx ≠ x) ++ ds } }

/-- The pushes a commit point calls for (R152). -/
def Inst.neededPushes (x : Nat) (b : Before) (n : MapImage) (i : Inst) : List Push :=
  (i.servedCoded x n).flatMap (fun p =>
    let olds := b.inst.chunkTargets p.1
    ((i.chunkTargets p.1).filter (fun t =>
      !olds.contains t || (isLost (b.inst.ctx x).memb.lost t.2.2 && !isLost (i.ctx x).memb.lost t.2.2))).map (fun t =>
        { id := 0, chunk := p.1, frag := t.1, home := t.2.2, pos := t.2.1, recon := p.2.isSome, sent := false }))

/-- The pushes after a commit point: those still owed, and the new ones (R152, R157). -/
def Inst.newPushes (x : Nat) (need : List Push) (n : MapImage) (i : Inst) : Inst :=
  let served := i.servedCoded x n
  let kept := i.memb.pushes.filter (fun p => p.chunk.ctx ≠ x || (!need.any (samePush p) && served.any (fun s => s.1 == p.chunk) &&
    (i.chunkTargets p.chunk).contains (p.frag, p.pos, p.home)))
  let new := need.mapIdx (fun k p => { p with id := i.memb.nextPush + k })
  { i with memb := { i.memb with pushes := kept ++ new, nextPush := i.memb.nextPush + new.length } }

/-- A record's holders under the new map: the same holder keeps its place, a pushed position owes every record (R102, R152). -/
def Inst.retarget (need : List Push) (oldest : Bool) (r : Backlog) (i : Inst) : Backlog :=
  let ts := i.chunkTargets r.chunk
  let kept := r.owes.filter (fun o => ts.any (fun t => t.1 = o.frag && t.2.2 = o.home) &&
    !need.any (fun p => p.chunk = r.chunk && p.frag = o.frag && p.home = o.home))
  let new := (need.filter (fun p => p.chunk = r.chunk)).map (fun p =>
    ({ frag := p.frag, home := p.home, first := oldest && r.owes.any (fun o => o.first), sent := 0 } : Owe))
  { r with owes := kept ++ new }

/-- Backlog records under the new map: what was queued and not sent is sent afresh (R102); a record no one is owed is freed. -/
def Inst.newOwes (x : Nat) (need : List Push) (i : Inst) : Inst :=
  let unsent := i.fab.outq.filterMap (fun o => match o.owner with
    | .coding id f true => if o.ctx = x then some (id, f) else none
    | _ => none)
  let again := fun (r : Backlog) => { r with owes := r.owes.map (fun (o : Owe) => if unsent.contains (r.id, o.frag) then { o with sent := 0 } else o) }
  let coding := fun (o : OutOp) => o.ctx == x && (match o.owner with | .coding _ _ _ => true | _ => false)
  let first := fun (r : Backlog) => match (i.recordsOf r.chunk).head? with | some p => p.id == r.id | none => false
  let rs := i.cod.backlog.map (fun r => if r.chunk.ctx = x then i.retarget need (first r) (again r) else r)
  let j : Inst := { i with fab := { i.fab with outq := i.fab.outq.filter (fun o => !coding o) },
                           cod := { i.cod with backlog := rs.filter (fun r => !r.owes.isEmpty) } }
  (rs.filter (fun r => r.owes.isEmpty)).foldl (fun i r => i.recordFreed r) j

/-- The rows an image gives an instance to hold, with their extents' kinds. -/
def MapImage.rowsHeld (m : MapImage) (inst : Nat) : List FragId :=
  (m.extents.filter (fun e => e.inst == inst && e.kind != 0)).flatMap (fun e =>
    (List.range e.rowCount).map (fun k => { stripe := e.stripe, row := e.firstRow + k, role := e.kind, index := e.position }))

/-- The contributing positions of a row that have no chunk there, and whether some position has one (R151; log entry 153). -/
def MapImage.emptyBits (m : MapImage) (x : Nat) (f : FragId) : List Nat × Bool :=
  match m.stripe f.stripe with
  | none => ([], false)
  | some s =>
    let ps := contributors s.geom (if f.role = 3 then 1 else f.role) f.index
    let e := ps.filter (fun p => (m.chunkAt x f.stripe f.row p).isNone)
    (e, decide (e.length < ps.length))

/-- The building table after a commit point (R151, R152). -/
def Inst.newBuilding (x : Nat) (b : Before) (n : MapImage) (i : Inst) : Inst :=
  let held := fun (m : Option MapImage) (f : FragId) => m.bind (fun m => (m.heldRow i.view.idx f).map (fun r => (r.slot, r.first)))
  let fresh := if b.old.isNone && !n.marked then [] else
    (n.rowsHeld i.view.idx).filter (fun f => b.rejoin || held b.old f != held (some n) f)
  let made := fresh.filterMap (fun f =>
    let e := n.emptyBits x f
    if e.2 then some ({ ctx := x, frag := f, bits := e.1 } : Building) else none)
  { i with cod := { i.cod with building := i.cod.building.filter (fun r => r.ctx ≠ x ||
      ((held (some n) r.frag).isSome && !fresh.contains r.frag)) ++ made } }

/-- Whether a slot lies in one of some spans. -/
def inSpans (l : List (Nat × Nat)) (s : Nat) : Bool := l.any (fun p => decide (p.1 ≤ s) && decide (s < p.1 + p.2))

/-- Whether the new map keeps what an extent of the old one held at a slot: the same extent, the same chunk, the same rows or the
vectors of the same fragment. A slot in no old extent is none that a dropped extent clears (R61, R158). -/
def keepsSlot (x : Nat) (self : Home) (old new : MapImage) (s : Nat) : Bool :=
  match old.extentOf self s with
  | none => true
  | some e => match new.extentOf self s with
    | none => false
    | some f =>
      decide (e = f) || (match old.extentUse x e s, new.extentUse x f s with
        | .data a, .data b => a == b
        | .rows _ a, .rows _ b => a == b
        | .vector, .vector => e.kind == f.kind && e.position == f.position && e.stripe == f.stripe
        | _, _ => false)

/-- Slots of the extents the new map drops are cleared, but for those a caravan still reads; a returning home's parity rows too
(R61, R145, R152, R158, R164). -/
def Inst.clearDropped (x : Nat) (b : Before) (n : MapImage) (i : Inst) : Inst :=
  let src := (i.memb.moving.filter (fun m => m.ctx = x)).flatMap (fun m => m.slots.map Prod.snd)
  let par := if b.rejoin then n.paritySpans i.view.idx else []
  let gone := fun (s : Nat) => (match b.old with | some o => !keepsSlot x i.self o n s && !src.contains s | none => false) || inSpans par s
  { i with mem := { i.mem with valid := i.mem.valid.filter (fun s => !gone s) } }

/-- A row's vector as a new map orders it: the entries it had, uncommitted ones for the members it did not have (R96, R147). -/
def vecUnder (old new : MapImage) (f : FragId) (v : List VecEntry) : List VecEntry :=
  let who := fun (m : MapImage) => match m.stripe f.stripe with | some s => contributors s.geom f.role f.index | none => []
  (who new).map (fun k => match (who old).findIdx? (· = k) with
    | some n => v.getD n (vecOf (List.replicate 16 0))
    | none => vecOf (List.replicate 16 0))

/-- The vectors of the parity rows held under a new map that do not lie where they lay, read under the old one (R97, R147): appended
positions widen them. A row not held before has an uncommitted one. -/
def Inst.movedVecs (old new : MapImage) (i : Inst) : Inst × List (RowPlace × List VecEntry) :=
  (((new.rowsHeld i.view.idx).filter (fun f => f.role ≠ 3))).foldl (fun (a : Inst × List (RowPlace × List VecEntry)) f =>
    match new.heldRow i.view.idx f, old.heldRow i.view.idx f with
    | some h, some g =>
      if g.slot = h.slot then
        if g.place = h.place then a else let v := a.1.readVec g.place; (v.1, a.2 ++ [(h.place, vecUnder old new f v.2)])
      else (a.1, a.2 ++ [(h.place, List.replicate h.place.entries (vecOf (List.replicate 16 0)))])
    | some h, none => (a.1, a.2 ++ [(h.place, List.replicate h.place.entries (vecOf (List.replicate 16 0)))])
    | none, _ => a) (i, [])

/-- Vectors written; an uncommitted entry of a slot that reads as zeros needs no write (R61, R97). -/
def Inst.writeVecs (vs : List (RowPlace × List VecEntry)) (i : Inst) : Inst :=
  vs.foldl (fun i v => v.2.zipIdx.foldl (fun (i : Inst) e =>
    if e.1 = vecOf (List.replicate 16 0) ∧ !i.isValid v.1.vecSlot then i else i.writeVecAt v.1 e.2 e.1) i) i

/-- The slots of a context under its new map: dropped ones cleared, and version vectors laid out for the positions the stripes now
have (R97, R147, R158; log entry 135). -/
def Inst.layOut (x : Nat) (b : Before) (n : MapImage) (i : Inst) : Inst :=
  let v := match b.old with | some o => if b.rejoin then (i, []) else i.movedVecs o n | none => (i, [])
  (v.1.clearDropped x b n).writeVecs v.2

/-- Tables of rows and fragments no longer held are dropped; plans were made for the old stripes (R85, R101). -/
def Inst.dropRows (x : Nat) (i : Inst) : Inst :=
  let ok := fun (p : Nat × FragId) => p.1 ≠ x || (i.heldRow x p.2).isSome
  { i with cod := { i.cod with
      plans := i.cod.plans.filter (fun p => p.ctx ≠ x), damaged := i.cod.damaged.filter ok, repoison := i.cod.repoison.filter ok,
      opens := i.cod.opens.filter (fun o => o.ctx ≠ x || (i.heldRow x o.frag).isSome) } }

/-- Gradients short of their release point are put at the ledger holders the new map names (R21, R111). -/
def Inst.newPuts (x : Nat) (b : Before) (i : Inst) : Inst :=
  (i.opt.work.filter (fun w => decide (w.ctx = x) && !w.putsDue.isEmpty && !w.retired)).foldl (fun (i : Inst) w =>
    let due := (i.putHomes x w.q).filter (fun h => w.putsDue.contains h || !(b.inst.putHomes x w.q).contains h)
    let mine := fun (o : OutOp) => o.owner == OpOwner.grad x w.q w.step
    let fresh := due.filter (fun h => !w.putsDue.contains h || (h ≠ i.self && !i.fab.all.any (fun o => mine o && decide (o.dst = h))))
    let gone := fun (o : OutOp) => mine o && !due.contains o.dst
    let j : Inst := { i with fab := { i.fab with outq := i.fab.outq.filter (fun o => !gone o), retry := i.fab.retry.filter (fun o => !gone o) } }
    let k := j.modWork x w.q w.step (fun v => { v with putsDue := due })
    if due.isEmpty then k.releaseWork x w.q w.step else k.sendPuts { w with putsDue := fresh }) i

/-- Scalars whose puts are not all acknowledged go to the holders the new map names (R108, R111). -/
def Inst.newScalars (x : Nat) (i : Inst) : Inst :=
  (i.opt.scalars.filter (fun s => decide (s.ctx = x) && s.sentPut && !s.acks.isEmpty && !s.retired)).foldl (fun (i : Inst) s =>
    match (i.image x).bind (fun m => m.layer s.layer) with
    | none => i
    | some l =>
      if s.acks.all (fun h => (i.scalarHomes x l s.src).contains h) then i else i.sendScalars s) i

/-- Ranges whose ledger holder the new map has replaced, with a step not committed everywhere, are UNLEDGERED (R111). -/
def Inst.markReplaced (x : Nat) (b : Before) (n : MapImage) (i : Inst) : Inst :=
  match b.old with
  | none => i
  | some o =>
    let qs := (((i.cod.backlog.filter (fun r => r.chunk.ctx = x)).map (fun r => r.chunk.q)) ++
      ((i.opt.work.filter (fun w => decide (w.ctx = x) && !w.retired && w.stage == .written)).map (fun w => w.q))).eraseDups
    let new := qs.filter (fun q => (n.ledgerHolder q).isSome && o.ledgerHolder q != n.ledgerHolder q &&
      !i.cod.unledgered.contains (x, q))
    ({ i with cod := { i.cod with unledgered := i.cod.unledgered ++ new.map (fun q => (x, q)) } }).count Cnt.unledgeredMarks new.length

/-- The stripe peers of an instance in its live contexts. -/
def Inst.livePeers (i : Inst) : List Home :=
  (i.ctxs.flatMap (fun c => match i.image c.1 with | some m => m.peers i.self | none => [])).eraseDups

/-- Partners, matches, channels and offers under the new maps; a channel keeps its numbers and its base, and one whose peer is
none of this instance's any more waits for nothing (R71, R116, R117, R262, R268, R271). -/
def Inst.newPeers (x : Nat) (b : Before) (i : Inst) : Inst :=
  let old := match b.old with | some o => o.peers i.self | none => []
  let now := match i.image x with | some m => m.peers i.self | none => []
  let dropped := old.filter (fun h => !now.contains h)
  let j := dropped.foldl (fun i h => i.dropTo x h true) (i.modMemb x (fun m => { m with matchIn := [], matchOut := [] }))
  let live := j.livePeers
  let want := (j.ctxs.flatMap (fun c => match j.image c.1 with | some m => m.partners j.self | none => [])).eraseDups
  let back := fun (h : Home) => isLost (b.inst.ctx x).memb.lost h && !isLost (j.ctx x).memb.lost h
  let partner := fun (h : Home) => match j.hb.partners.find? (fun p => p.home = h) with
    | some p => if back h then { p with lost := false, armed := false, epoch := none } else p
    | none => { home := h, epoch := none, armed := false, lost := false }
  let k : Inst := { j with
    fab := { j.fab with chans := j.fab.chans.map (fun c => if !live.contains c.peer && (c.parked || c.offWait) then
      { c with parked := false, offWait := false, resetDue := true } else c) },
    hb := { j.hb with partners := want.map partner } }
  (now.filter (fun h => !isLost (k.ctx x).memb.lost h)).foldl (fun i h => i.offer x h) k

/-- The preserved map of a warm reset, consulted at a context's first commit (R332): it marks the slots of ARRIVING runs that
come home here. -/
def Inst.usePreserved (x : Nat) (n : MapImage) (i : Inst) : Inst :=
  match i.mem.preserved with
  | none => i
  | some p =>
    if (i.ctx x).map.preservedUsed then i
    else
      let r := i.readSpill p
      let mine := (n.rangesOf (fun r => r.transition == 1)).filter (fun q => q.2 = i.self)
      let slots := mine.flatMap (fun q => (n.chunksOf x q.1).filterMap (fun c => n.slotAt n.extents i.self c.cls c.q c.k))
      let marks := slots.filter (fun s => r.2.contains s)
      let j : Inst := { r.1 with mem := { r.1.mem with valid := marks.foldl (fun v s => setBit s v) r.1.mem.valid } }
      (j.modMap x (fun m => { m with preservedUsed := true })).event 0x1106 (some x) [(24, 4, marks.length)]

/-- A roll-forward taken to its end, at most `n` steps. -/
def Inst.endRoll (id : Nat) : Nat → Inst → Inst
  | 0, i => i
  | n + 1, i =>
    match i.job id with
    | some j => match j.standinOf, i.image j.ctx with
      | some (l, q), some m => if j.phase = 3 then Inst.endRoll id n (i.rollNext m j l q) else i
      | _, _ => i
    | none => i

/-- Roll-forwards that have begun complete under the old map, like an update (R70, R138). -/
def Inst.endRolls (x : Nat) (i : Inst) : Inst :=
  (i.flt.jobs.filter (fun j => decide (j.ctx = x) && decide (j.phase = 3))).foldl (fun i j => i.endRoll j.id (j.entrySteps.length + 1)) i

/-- Whether a repair goes on at a commit point: what it repairs is still here, and the fragment it decodes is still one (R246). -/
def Inst.repairStands (x : Nat) (j : Job) (i : Inst) : Bool :=
  match j.kind with
  | .standin _ _ => false
  | .chunkRepair slot _ _ => j.rows.all (fun r => i.chunkSlot r.chunk == some slot && (i.chunkFrags r.chunk).contains r.target)
  | .shadowRepair slot _ => j.rows.all (fun r => i.chunkSlot r.chunk == some slot && (i.chunkTargets r.chunk).any (fun t => t.1 = r.target))
  | .rowRepair f _ _ => (i.heldRow x f).isSome && (i.buildingAt x f).isNone

/-- A job that a commit point ended begun again where the new map still calls for it: a stand-in's decode, or the repair of a chunk
that now is another fragment (R138, R246). -/
def Inst.restartJob (x : Nat) (j : Job) (i : Inst) : Inst :=
  match j.kind, j.rows with
  | .standin _ q, _ => match i.serves x q with
    | some (some l) => i.decodeUnit x q l
    | _ => i
  | .chunkRepair slot line scrub, r :: _ => if i.chunkSlot r.chunk = some slot then i.startChunkRepair r.chunk slot line scrub else i
  | .shadowRepair slot line, r :: _ => if i.chunkSlot r.chunk = some slot then i.startShadowRepair r.chunk slot line else i
  | _, _ => i

/-- What the fault service does at a commit point: copies of chunks no longer stood in for are dropped, the ranges stood in for are
adopted, repairs go on, decodes that had not reached their roll-forward and those of chunks beyond tolerance begin again under the
new stripes, and SERVED ends for members served no more (R71, R125, R134, R138, R141, R145, R246; log entry 87). -/
def Inst.newStandins (x : Nat) (b : Before) (n : MapImage) (i : Inst) : Inst :=
  let mine := fun (q : Nat) => match i.serves x q with | some (some _) => true | _ => false
  let was := fun (q : Nat) => match b.served x q with | some (some _) => true | _ => false
  let held := fun (c : ChunkId) => match i.servesChunk n c with | some (some _) => true | _ => false
  let stands := fun (j : Job) => decide (j.ctx ≠ x) || i.repairStands x j
  let lost := (i.flt.copies.filter (fun c => decide (c.chunk.ctx = x) && c.info.lost)).flatMap (fun c => i.chunkRanges n c.chunk)
  let j : Inst := { i with flt := { i.flt with
    copies := i.flt.copies.filter (fun c => c.chunk.ctx ≠ x || held c.chunk || !(i.recordsOf c.chunk).isEmpty),
    jobs := i.flt.jobs.filter stands, adopted := i.flt.adopted.filter (fun a => a.1 ≠ x || (mine a.2 && was a.2)) } }
  let k := (i.flt.jobs.filter (fun j => !stands j)).foldl (fun i j => i.restartJob x j) (j.settleWaiters.adopt x)
  let m := lost.eraseDups.foldl (fun (i : Inst) q => match i.serves x q with | some (some l) => i.decodeUnit x q l | _ => i) k
  (m.endServed x).wakeJobs

/-- The level TRANSITION_DONE at a commit point (R157). -/
def Inst.newDone (x : Nat) (n : MapImage) (i : Inst) : Inst :=
  if n.marked || i.transitionOpen x then
    ({ i with memb := { i.memb with due := insertNat x i.memb.due,
                                    done := if i.transitionOpen x then i.memb.done.filter (· ≠ x) else i.memb.done } }).checkDone x
  else i

/-- The commit point of an image that keeps the context (R70, R71). -/
def Inst.commitLive (x : Nat) (n : MapImage) (i : Inst) : Inst :=
  let i := i.endRolls x
  let before := (i.ctx x).mapVersion
  let old := i.image x
  let fenced := (i.ctx x).memb.fenced || (i.ctx x).memb.offline
  let b : Before := { old := old, inst := i, rejoin := fenced && n.arriving.contains i.self }
  let a := (i.modMap x (CtxMap.committed n)).freshLines (mapCopySlot x * 4096) n.head.bytes
  let c := if old.isSome then a else a.modRun x (fun r => { CtxSt.freeCtx.run with step := n.head.baseStep, poolMin := r.poolMin,
                                                                                   evacuate := r.evacuate })
  let d := if b.rejoin then c.rejoinSelf x else c
  let e := (d.carryLost x n).event 0x1102 (some x) [(24, 4, before), (28, 4, ((d.carryLost x n).ctx x).mapVersion)]
  let f := if old.isNone then e.usePreserved x n else e
  let g := (((f.newLedger x b n).newMoves x b n).newDual x b n).dropRows x
  let need := if old.isNone then [] else g.neededPushes x b n
  let h := (((g.newPushes x need n).newOwes x need).newBuilding x b n).layOut x b n
  let k := h.modMemb x (fun m => { m with rollback := h.cod.opens.any (fun o => o.ctx = x), prev := i.prevImage x n })
  ((((((k.newPeers x b).newPuts x b).newScalars x).markReplaced x b n).newStandins x b n).newDone x n).pump

/-- Everything an instance holds for a context besides its map, dropped (R73). -/
def Inst.dropCtx (x : Nat) (i : Inst) : Inst :=
  { i with
    opt := { i.opt with
      work := i.opt.work.filter (fun w => w.ctx ≠ x), parts := i.opt.parts.filter (fun p => p.ctx ≠ x),
      scalars := i.opt.scalars.filter (fun s => s.ctx ≠ x), flights := i.opt.flights.filter (fun f => f.ctx ≠ x),
      refreshes := i.opt.refreshes.filter (fun r => r.ctx ≠ x), decisions := i.opt.decisions.filter (fun d => d.1 ≠ x),
      waits := i.opt.waits.filter (fun w => w.1 ≠ x), layerOrder := i.opt.layerOrder.filter (fun l => l.1 ≠ x) },
    cod := { i.cod with
      backlog := i.cod.backlog.filter (fun r => r.chunk.ctx ≠ x), opens := i.cod.opens.filter (fun o => o.ctx ≠ x),
      building := i.cod.building.filter (fun r => r.ctx ≠ x), damaged := i.cod.damaged.filter (fun d => d.1 ≠ x),
      repoison := i.cod.repoison.filter (fun d => d.1 ≠ x), needFull := i.cod.needFull.filter (fun d => d.1 ≠ x),
      plans := i.cod.plans.filter (fun p => p.ctx ≠ x), ledger := i.cod.ledger.filter (fun h => h.ctx ≠ x),
      unledgered := i.cod.unledgered.filter (fun u => u.1 ≠ x) },
    emit := { i.emit with waiting := i.emit.waiting.filter (fun r => r.ctx ≠ x), tally := i.emit.tally.filter (fun t => t.ctx ≠ x),
                          formats := i.emit.formats.filter (fun f => f.1.ctx ≠ x) },
    flt := { i.flt with
      jobs := i.flt.jobs.filter (fun j => j.ctx ≠ x), copies := i.flt.copies.filter (fun c => c.chunk.ctx ≠ x),
      served := i.flt.served.filter (fun s => s.1 ≠ x), firstServed := i.flt.firstServed.filter (fun s => s.1 ≠ x),
      adopted := i.flt.adopted.filter (fun a => a.1 ≠ x), settled := i.flt.settled.filter (fun a => a.1 ≠ x),
      toFix := i.flt.toFix.filter (fun t => t.ctx ≠ x) },
    fab := { i.fab with partials := i.fab.partials.filter (fun o => o.hdr.ctx ≠ x) },
    memb := { i.memb with
      moving := i.memb.moving.filter (fun m => m.ctx ≠ x), remote := i.memb.remote.filter (fun r => r.ctx ≠ x), incoming := i.memb.incoming.filter (fun p => p.1 ≠ x),
      departed := i.memb.departed.filter (fun d => d.1 ≠ x), pushes := i.memb.pushes.filter (fun p => p.chunk.ctx ≠ x),
      dual := i.memb.dual.filter (fun d => d.ctx ≠ x), done := i.memb.done.filter (· ≠ x), due := i.memb.due.filter (· ≠ x),
      stopped := i.memb.stopped.filter (· ≠ x) } }

/-- Operations still held for a context that leaves LIVE: discarded, each counted as WINDOW_DENY and logged (R266). -/
def Inst.denyHeld (x : Nat) (i : Inst) : Inst :=
  let mine := fun (o : OutOp) => decide (o.ctx = x)
  ((i.fab.outq ++ i.fab.retry).filter mine).foldl (fun i o => i.noteDeny o)
    { i with fab := { i.fab with outq := i.fab.outq.filter (fun o => !mine o), retry := i.fab.retry.filter (fun o => !mine o) } }

/-- The commit point of a release image (R73): RELEASING, the slots of the previous map cleared. -/
def Inst.commitRelease (x : Nat) (n : MapImage) (i : Inst) : Inst :=
  let before := (i.ctx x).mapVersion
  let b : Before := { old := i.image x, inst := i, rejoin := false }
  let spans := match b.old with | some o => o.slotSpans i.self | none => []
  let c := i.ctx x
  let j := i.setCtx x { CtxSt.freeCtx with map := c.map.committed n, user := { CtxSt.freeCtx.user with pending := c.user.pending } }
  let k := ((spans.foldl (fun (i : Inst) s => i.clearSlots s.1 s.2) (j.freshLines (mapCopySlot x * 4096) n.head.bytes)).dropCtx x).event
    0x1102 (some x) [(24, 4, before), (28, 4, (j.ctx x).mapVersion)]
  (((k.denyHeld x).newPeers x b).settleWaiters).pump

/-- COMMIT_POINT (R70): reached once the updates already started have been written back. -/
def Inst.commitPoint (x : Nat) (i : Inst) : Inst :=
  let m := (i.ctx x).map
  match m.slot, m.staged with
  | 2, some n =>
    if !i.running || i.opt.flights.any (fun f => f.ctx = x) then i
    else if n.release then i.commitRelease x n else i.commitLive x n
  | _, _ => i

/-- ROLLBACK_DONE (R101): the steps left open at the commit point are rolled back. -/
def Inst.rollbackDone (x : Nat) (i : Inst) : Inst :=
  if i.running && (i.ctx x).memb.rollback then
    ((((i.rollbackAll (i.cod.opens.filter (fun o => o.ctx = x))).modMemb x (fun m => { m with rollback := false })).settleWaiters)).pump
  else i

/-- RELEASE_DONE (R73): the context is FREE. -/
def Inst.releaseDone (x : Nat) (i : Inst) : Inst :=
  let c := i.ctx x
  if i.running && decide (c.map.state = 2) then
    (i.setCtx x { CtxSt.freeCtx with
      map := { CtxSt.freeCtx.map with staged := c.map.staged, slot := c.map.slot, barred := c.map.barred, loadResult := c.map.loadResult,
                                      commitResult := c.map.commitResult, preservedUsed := c.map.preservedUsed },
      user := { CtxSt.freeCtx.user with pending := c.user.pending } }).event 0x1104 (some x) []
  else i

/-- The end of a MAP_LOAD whose source was read (R67, R68, R311): the result, and the copy a staged image leaves. The copy is read
back, after what has befallen it in the stack: a line UNCORRECTABLE there ends the load as BAD_CRC with the slot EMPTY (R240). -/
def Inst.mapLoaded (d : Descr) (b : Bytes) (us : List Upset) (i : Inst) : Inst :=
  let x := d.ctx
  let len := bits (d.word 1) 16 0 * 64
  let b := slice 0 len b
  let done := fun (i : Inst) (c : CtxMap) (code : Nat) =>
    let j := (i.modMap x (fun _ => { c with loadResult := code })).eventBy 0x1101 0x11 (some x) d.init [(20, 1, code), (24, 4, field 8 4 b)]
    j.finishCmd d (if code = 0x00 ∨ code = 0x16 then 0 else 2) code 0
  match i.checkImage x len b with
  | .inl code => done i (i.ctx x).map code
  | .inr m =>
    let r := stageSlot m (i.ctx x).map (i.ctx x).live
    if r.2 ≠ 0 then done i r.1 r.2
    else
      let at_ := (mapCopySlot x + 1024) * 4096
      let k := ((i.freshLines at_ len).upsets us).readSpan false at_ len
      if k.2 then done k.1 r.1 0x00 else done k.1 { r.1 with slot := 0, staged := none } 0x03

/-- A read of host memory that failed (R287, R402). -/
def Inst.hostReadError (kind addr : Nat) (i : Inst) : Inst :=
  (({ i with load := { i.load with lastErr := addr, lastKind := kind } }).count Cnt.pcieReadErr 1).event 0x2201 none
    [(20, 1, kind), (24, 8, addr)]

/-- A command refused with a result code the spec does not give (R311): the code is a free value. -/
def Inst.refuseFree (d : Descr) (i : Inst) : Inst :=
  let f := i.freshValue
  f.1.finishCmd d 2 (f.2.toNat % 2 ^ 32) 0

/-- MAP_LOAD (R67, R68, R287, R310, R311). -/
def Inst.mapLoad (src : HostData) (us : List Upset) (i : Inst) : Inst :=
  match i.startable 0x01 with
  | none => i.startWait 0x01
  | some d =>
    let j := i.takeCmd
    match src with
    | .data b => j.mapLoaded d b us
    | .error k => if d.arg.testBit 0 then j.refuseFree d else (j.hostReadError k (d.a64 2)).refuseFree d

/-- Free slots of the context pool (R165, R379). -/
def Inst.poolFree (i : Inst) : Nat :=
  i.ledgerBase - ((i.ctxs.map (fun c => match i.image c.1 with | some m => ((m.slotSpans i.self).map Prod.snd).sum | none => 0)).sum)

/-- The level RESERVE_EXHAUSTED judged again (R165, R379); its rise writes a fault record. -/
def Inst.judgeReserve (i : Inst) : Inst :=
  let set := (i.reg 0x16 0x018 0).testBit 0
  let on := set || decide (i.poolFree < i.reg 0x16 0x114 0)
  let j : Inst := { i with memb := { i.memb with reserve := on } }
  if on && !i.memb.reserve then
    j.faultRecord { kind := 6, cause := if set then 0x30 else 0x31, ctx := none, subject := i.self, detector := i.self }
  else j

/-- MAP_LOAD. -/
def execMapLoad (i : InstId) (source : MapSource) (s : State) : Host.Outcome State Fault Refusal :=
  runInst i (Inst.mapLoad source.data source.upsets) s

/-- COMMIT_POINT. -/
def execCommitPoint (i : InstId) (ctx : Nat) (s : State) : Host.Outcome State Fault Refusal :=
  runInst i (fun i => (i.commitPoint ctx).judgeReserve) s

/-- ROLLBACK_DONE. -/
def execRollbackDone (i : InstId) (ctx : Nat) (s : State) : Host.Outcome State Fault Refusal := runInst i (Inst.rollbackDone ctx) s

/-- RELEASE_DONE. -/
def execReleaseDone (i : InstId) (ctx : Nat) (s : State) : Host.Outcome State Fault Refusal :=
  runInst i (fun i => (i.releaseDone ctx).judgeReserve) s

end Sys2Proof.Machine
end

