-- ==== Sys2Proof/Machine/Cmds.lean ====
section
/-! DEFINITION. Commands of the command queue: the words pushed, PARAM_LOAD, LOAD from host memory, DIGEST_DUMP, COLONY_CHECK and
the checker test commands (R182, R236, R252, R253, R280 to R287, R308 to R311). -/

namespace Sys2Proof.Machine

/-- Orphan words counted for an initiator (R308). -/
def CmdQ.orphan (init n : Nat) (q : CmdQ) : CmdQ := { q with orphans := q.orphans.put init ((q.orphans.getD 0 init + n) % 2 ^ 32) }

/-- A descriptor whose last word has arrived: queued, or discarded as BAD_DESCRIPTOR (R308, R310, R311). -/
def Inst.enqueue (d : Descr) (i : Inst) : Inst :=
  if d.ok then { i with cmdq := { i.cmdq with queue := i.cmdq.queue ++ [d] } } else i.complete d 3 []

/-- Words of an initiator's buffer after one more: complete, or still assembling (R308). -/
def Inst.pushInto (init : Nat) (ws : List Word) (i : Inst) : Inst :=
  if ws.length = descrLen (ws.headD 0) then
    ({ i with cmdq := { i.cmdq with asm := i.cmdq.asm.del init } }).enqueue { init := init, words := ws }
  else { i with cmdq := { i.cmdq with asm := i.cmdq.asm.put init ws } }

/-- A word pushed by MGMT, HOST or DBG (R308): none where the push ends in a bus error. -/
def Inst.cmdqPush (init : Nat) (w : Word) (i : Inst) : Inst × Bool :=
  let open_ := (i.cmdq.asm.find init).getD []
  if w.getLsbD 31 then
    let q := ({ i.cmdq with asm := i.cmdq.asm.del init } : CmdQ).orphan init open_.length
    let j : Inst := { i with cmdq := q }
    if q.free < 8 then (j.count Cnt.cmdqFull 1, false) else (j.pushInto init [w], true)
  else if open_.isEmpty then ({ i with cmdq := i.cmdq.orphan init 1 }, true)
  else (i.pushInto init (open_ ++ [w]), true)

/-- The flush of the queue (R312). -/
def Inst.cmdqFlush (init : Nat) (i : Inst) : Inst :=
  let n := i.cmdq.queue.length
  let q := i.cmdq.asm.foldl (fun (q : CmdQ) a => q.orphan a.1 a.2.length) { i.cmdq with queue := [], asm := [] }
  ({ i with cmdq := q }).eventBy 0x1005 0x10 none init [(24, 4, n)]

/-- PARAM_LOAD (R182, R287). -/
def Inst.paramLoad (src : HostData) (i : Inst) : Inst :=
  match i.startable 0x02 with
  | none => i.startWait 0x02
  | some d =>
    let j := i.takeCmd
    let b := bits d.arg 4 0
    match src with
    | .error k => (j.hostReadError k (d.a64 1)).refuseFree d
    | .data bytes =>
      let ws := (piecesOf 4 (slice 0 128 bytes)).map (fun p => w32 (leNat p))
      if !paramsOk ws then (j.event 0x1904 (some d.ctx) [(20, 1, b)]).refuseFree d
      else if j.opt.waits.contains (d.ctx, 3, b) && !(j.ctx d.ctx).run.paused then (j.event 0x1905 (some d.ctx) [(20, 1, b)]).refuseFree d
      else (({ j with opt := { j.opt with params := j.opt.params.put (d.ctx * 32 + b) ws } } : Inst).finishCmd d 0 0 1).pump

/-- The fields of a LOAD (R280, R310). -/
def Descr.loadCls (d : Descr) : Nat := bits d.arg 2 0
def Descr.isCold (d : Descr) : Bool := d.arg.testBit 3
def Descr.loadVersion (d : Descr) : Nat := bits (d.word 4) 30 0 + 2 ^ 31 * bits d.arg 4 4
def Descr.loadFirst (d : Descr) : Nat := bits (d.word 1) 30 0 + 2 ^ 31 * bits (d.word 2) 16 0
def Descr.loadCount (d : Descr) : Nat := bits (d.word 3) 30 0

/-- The chunks a LOAD names, in the order of R63, with their places in host memory; where no map is committed, one for each range. -/
def Inst.loadChunks (d : Descr) (i : Inst) : List LoadChunk :=
  let per := match i.image d.ctx with | some m => m.perRange d.loadCls | none => 1
  (List.range d.loadCount).flatMap (fun n => (List.range per).map (fun k =>
    { id := { ctx := d.ctx, cls := d.loadCls, q := d.loadFirst + n, k := k }, addr := d.a64 5 + 4096 * (n * per + k), phase := .waiting }))

/-- The ranges whose unit has a block chunk (R192). -/
def Inst.rangeOfBlock (m : MapImage) (x : Nat) (c : ChunkId) (i : Inst) : Option Nat :=
  (m.layers.flatMap (fun l => (List.range (m.layerCount l)).map (fun k => m.layerFirst l + k))).find? (fun q =>
    match i.unitOf x q with | some u => u.factor.contains c || u.scratch.contains c | none => false)

/-- The version VERSION must be (R281): the base step while no step has been applied, then the range's own; a block chunk has the
version of its own record. -/
def Inst.wantVersion (m : MapImage) (c : ChunkId) (i : Inst) : Inst × Nat :=
  if m.elements.any (fun e => e.id == c.cls) then
    let a := i.appliedStep c.ctx c.q
    (a.1, (a.2.getD m.head.baseStep) % 2 ^ 32)
  else match i.chunkSlot c with
    | some s => if i.isValid s then let r := i.readRec s; (r.1, r.2.version) else (i, m.head.baseStep % 2 ^ 32)
    | none => (i, (((i.flt.copies.find? (fun k => k.chunk = c)).map (fun k => k.info.version)).getD m.head.baseStep) % 2 ^ 32)

/-- The judgement of a chunk of a LOAD: accepted, to wait, or refused with a status of R285. -/
inductive LoadTest where
  | accept | wait | refuse (status : Nat)
  deriving DecidableEq, Repr

/-- A chunk's loadability where it is coded (R281): at the home by its valid-map bit, at a stand-in by what was decoded. -/
def Inst.uncoded (m : MapImage) (c : ChunkId) (standin : Option Home) (i : Inst) : Inst × LoadTest :=
  match standin with
  | none =>
    match i.chunkSlot c with
    | some s => let j := i.mapWord s; (j, if j.isValid s then .refuse 1 else .accept)
    | none => (i, .refuse 2)
  | some l =>
    match i.flt.copies.find? (fun k => k.chunk = c) with
    | some k => (i, if k.fresh then .accept else .refuse 1)
    | none =>
      let q := if m.elements.any (fun e => e.id == c.cls) then some c.q else i.rangeOfBlock m c.ctx c
      match q with
      | some q => (i.startStandin c.ctx q l, .wait)
      | none => (i, .refuse 2)

/-- The checks of R281 on one chunk. -/
def Inst.loadTest (c : ChunkId) (version : Nat) (i : Inst) : Inst × LoadTest :=
  match i.image c.ctx with
  | none => (i, .refuse 4)
  | some m =>
    match i.servesChunk m c with
    | none => (i, .refuse 2)
    | some st =>
      if i.opt.flights.any (fun f => decide (f.ctx = c.ctx) && (f.ranges.contains c.q || f.newChunks.any (fun n => n.chunk = c))) then (i, .wait)
      else
        let u := if m.protOf c = 2 then (i, LoadTest.accept) else i.uncoded m c st
        match u.2 with
        | .accept =>
          let w := u.1.wantVersion m c
          (w.1, if w.2 = version then .accept else .refuse 3)
        | t => (u.1, t)

/-- Host reads outstanding (R287). -/
def Inst.readsOut (i : Inst) : Nat := ((i.cmdq.running.flatMap (fun r => r.chunks)).filter (fun c => c.phase == .reading)).length

/-- One waiting chunk of a running LOAD looked at: its read leaves, or its status is recorded (R281, R287). -/
def Inst.loadNext (serial : Nat) (l : LoadChunk) (i : Inst) : Inst :=
  match i.cmd serial with
  | none => i
  | some r =>
    if 256 ≤ i.readsOut then i
    else if !i.shareRoom 5 4096 then i.poolFail 5
    else
      let t := i.loadTest l.id r.descr.loadVersion
      match t.2 with
      | .wait => t.1
      | .refuse s => t.1.putCmd (r.note l.id s)
      | .accept => (t.1.putCmd { r with chunks := r.chunks.map (fun k => if k.id = l.id then { k with phase := .reading } else k) }).emitOut
          (.hostRead l.addr 4096)

/-- The waiting chunks of a LOAD from host memory looked at in turn. -/
def Inst.advanceLoad (serial : Nat) (i : Inst) : Inst :=
  match i.cmd serial with
  | none => i
  | some r =>
    let j := (r.chunks.filter (fun c => c.phase == .waiting)).foldl (fun (i : Inst) l => i.loadNext serial l) i
    match j.cmd serial with
    | some n => j.settleLoad n
    | none => j

/-- LOAD from host memory (R280 to R284): the queue's first descriptor starts where it is one; every running one goes on. -/
def Inst.loadHost (i : Inst) : Inst :=
  if !i.running then i
  else
    let j := match i.startable 0x03 with
      | some d => if d.isCold then i else i.takeCmd.runCmd { Running.fresh d with chunks := i.loadChunks d }
      | none => i.startWait 0x03
    (((j.cmdq.running.filter (fun r => r.descr.op = 3 ∧ r.cold.isNone)).map (fun r => r.serial)).foldl (fun (i : Inst) n => i.advanceLoad n) j).pump

/-- The transport format a loaded MASTER version is obtained under: its layer's present one (R231). -/
def Inst.noteLoaded (m : MapImage) (c : ChunkId) (version : Nat) (i : Inst) : Inst :=
  if c.cls = m.master ∧ c.k = 0 then i.noteFormat c version (((m.layerOf c.q).map (fun l => l.tformat)).getD 0) else i

/-- An accepted chunk written and coded (R282): at its home in its slot, at a stand-in only towards its holders. -/
def Inst.loadWrite (c : ChunkId) (version : Nat) (b : Bytes) (i : Inst) : Inst :=
  match i.image c.ctx with
  | none => i
  | some m =>
    let zero := List.replicate 4096 (0 : Byte)
    let step := extendStep (i.ctx c.ctx).run.step version
    let fmt := match m.layer (m.chunkLayer c) with | some l => l.tformat | none => 0
    let new : ChunkRec := { version := version, digest := crc64 b, attr := 0 }
    let i : Inst := { i with load := { i.load with written := i.load.written + 1 } }
    match i.chunkSlot c with
    | some s =>
      let v := i.isValid s
      let o := if v then i.readRec s else (i, ChunkRec.zero)
      let j := (o.1.writeChunk s b new).noteMoved { chunk := c, old := zero, new := b } version (if v then o.2.version else 0)
      let k := if o.2.poison then j.poisonCleared c version else j
      (k.noteLoaded m c version).addRecord m c step 0 true zero b fmt false true
    | none =>
      let j := if m.protOf c = 2 then i else i.putCopy { chunk := c, info := { new with attr := 2 }, fresh := false, bytes := b }
      (j.noteLoaded m c version).addRecord m c step 0 true zero b fmt true true

/-- The bytes of a chunk of a LOAD in hand (R282, R284): it is looked at once more, since a commit or a release may have come between. -/
def Inst.loadBytes (serial : Nat) (c : ChunkId) (b : Bytes) (i : Inst) : Inst :=
  match i.cmd serial with
  | none => i
  | some r =>
    let t := i.loadTest c r.descr.loadVersion
    match t.2 with
    | .refuse s => t.1.putCmd (r.note c s)
    | .wait => t.1.putCmd { r with chunks := r.chunks.map (fun k => if k.id = c then { k with phase := .waiting } else k) }
    | .accept => (t.1.putCmd { r with chunks := r.chunks.map (fun k => if k.id = c then { k with phase := .written } else k) }).loadWrite c
        r.descr.loadVersion (slice 0 4096 b)

/-- PCIE_READ_COMPLETION (R284, R287): a chunk's read of a LOAD has ended. -/
def Inst.pcieCompletion (serial n : Nat) (res : HostData) (i : Inst) : Inst :=
  match i.cmd serial with
  | none => i
  | some r =>
    match r.chunks[n]? with
    | none => i
    | some l =>
      if !i.running || l.phase ≠ .reading || r.cold.isSome then i
      else
        let j := match res with
          | .data b => i.loadBytes serial l.id b
          | .error k => (i.hostReadError k l.addr).putCmd (r.note l.id 5)
        (j.advanceLoad serial).pump

/-- The entries of a DIGEST_DUMP (R236). -/
def dumpEntry (p : ChunkId × ChunkRec) : Bytes :=
  packed 24 [(0, 6, p.1.q), (6, 1, p.1.k), (7, 1, p.2.attr), (8, 4, p.2.version), (16, 8, p.2.digest.toNat)]

/-- DIGEST_DUMP (R236). -/
def Inst.digestDump (i : Inst) : Inst :=
  match i.startable 0x04 with
  | none => i.startWait 0x04
  | some d =>
    let j := i.takeCmd
    let layer := bits (d.word 1) 30 0 + 2 ^ 31 * bits d.arg 3 3
    match (j.image d.ctx).bind (fun m => (m.layer layer).bind (fun l => (m.cls (bits d.arg 2 0)).map (fun c => (m, l, c)))) with
    | none => j.finishCmd d 0 0 0
    | some p =>
      let r := j.recsOf (j.servedChunks p.1 d.ctx p.2.1 p.2.2)
      let out := (r.2.mapIdx (fun n e => OutEvent.hostWrite (d.a64 2 + 24 * n) (dumpEntry e)))
      (({ r.1 with out := r.1.out ++ out }).finishCmd d 0 0 r.2.length).pump

/-- The parity rows a COLONY_CHECK names that this instance holds (R252). -/
def Inst.checkRows (d : Descr) (i : Inst) : List FragId :=
  let stripe := bits (d.word 1) 30 0 + 2 ^ 31 * bits d.arg 0 0
  let first := bits (d.word 2) 30 0 + 2 ^ 31 * bits d.arg 1 1
  let count := bits (d.word 3) 30 0
  match (i.image d.ctx).map (fun m => m.rowsHeld i.view.idx) with
  | some rows => rows.filter (fun f => f.stripe == stripe && decide (first ≤ f.row) && decide (f.row < first + count) && f.role != 3)
  | none => []

/-- COLONY_CHECK (R252): local rows against their digests, global rows rebuilt and compared. -/
def Inst.colonyCheck (i : Inst) : Inst :=
  match i.startable 0x05 with
  | none => i.startWait 0x05
  | some d =>
    let rows := i.checkRows d
    let j := rows.foldl (fun (i : Inst) f => if f.role = 1 then i.colonyRow false d.ctx f else i.startRowRepair d.ctx f (List.range 64) true) i.takeCmd
    ((j.runCmd { Running.fresh d with frags := rows, items := rows.length }).settleChecks).pump

/-- Whether a checker test command is refused (R253). -/
def Inst.testRefused (slot : Nat) (i : Inst) : Bool :=
  let staged := i.ctxs.filterMap (fun c => c.2.map.staged.map (fun m => (c.1, m)))
  let spans := staged.flatMap (fun p => p.2.slotSpans i.self)
  !(i.reg 0x1C 0x018 0).testBit 0 || i.ctxs.any (fun c => c.2.map.state != 0) || decide (Slot.total ≤ slot) || inSpans spans slot ||
    spans.any (fun p => decide (recLine p.1 / 64 ≤ slot) && decide (slot ≤ recLine (p.1 + p.2 - 1) / 64) && decide (0 < p.2)) ||
    staged.any (fun p => decide (mapCopySlot p.1 ≤ slot) && decide (slot < mapCopySlot p.1 + 2048)) ||
    (!staged.isEmpty && decide (i.ledgerBase ≤ slot) && decide (slot < Slot.ledgerEnd))

/-- The slot and line of a checker test command (R310). -/
def Descr.testSlot (d : Descr) : Nat := bits (d.word 1) 24 0
def Descr.testLine (d : Descr) : Nat := bits (d.word 1) 30 25

/-- The first write of a slot by a checker test command: its bytes and record read as zeros from now on (R61). The access of the chunk
table is a test access: it counts no correction and faults nothing (R253). -/
def Inst.testOpen (slot : Nat) (i : Inst) : Inst :=
  if i.isValid slot then i
  else
    let m := { (i.mem.putLines (slot * 64) (List.replicate 64 (List.replicate 64 0))) with valid := setBit slot i.mem.valid }
    let b := m.line (recLine slot)
    let put := fun (d : Bytes) => m.putLine (recLine slot) (overlay d [(recByte slot, 16, 0)])
    { i with mem := match rsVerdict b with
      | .clean => put (b.take 64)
      | .corrected p e => put ((setAt p (b.getD p 0 ^^^ e) b).take 64)
      | .uncorrectable => m }

/-- ECC_TEST_WRITE (R253): the first write of a pool slot opens it (R61); slots above the pool have no valid bit (log entry 147). -/
def Inst.eccTestWrite (src : HostData) (i : Inst) : Inst :=
  match i.startable 0x07 with
  | none => i.startWait 0x07
  | some d =>
    let j := i.takeCmd
    if j.testRefused d.testSlot then j.refuseFree d
    else match src with
      | .error k => (j.hostReadError k (d.a64 2)).refuseFree d
      | .data b =>
        let k := if d.testSlot < j.ledgerBase then j.testOpen d.testSlot else j
        (({ k with mem := k.mem.putRaw (64 * d.testSlot + d.testLine) (slice 0 68 b) }).count Cnt.eccTestAccesses 1).finishCmd d 0 0 1

/-- The verdict of R239 as a number. -/
def Verdict.index : Verdict → Nat
  | .clean => 0 | .corrected _ _ => 1 | .uncorrectable => 2

/-- The verdict byte of an ECC test read, and where a correctable error stands with its value (R239, R391). The byte that stands for each
verdict the spec does not give: it is a free value for each verdict (log entry 9). -/
def testTail (b : Bytes) : Bytes :=
  (Config.verdictByte (rsVerdict b).index) :: (match rsVerdict b with | .corrected p e => [BitVec.ofNat 8 p, e] | _ => [0, 0])

/-- ECC_TEST_READ (R253): the bytes as stored, the verdict, the position and the error value. -/
def Inst.eccTestRead (i : Inst) : Inst :=
  match i.startable 0x08 with
  | none => i.startWait 0x08
  | some d =>
    let j := i.takeCmd
    if j.testRefused d.testSlot then j.refuseFree d
    else
      let b := j.mem.line (64 * d.testSlot + d.testLine)
      ((j.emitOut (.hostWrite (d.a64 2) (b ++ testTail b ++ List.replicate 9 0))).count Cnt.eccTestAccesses 1).finishCmd d 0 0 1

/-- PARAM_LOAD. -/
def execParamLoad (i : InstId) (source : HostData) (s : State) : Host.Outcome State Fault Refusal := runInst i (Inst.paramLoad source) s

/-- LOAD. -/
def execLoad (i : InstId) (s : State) : Host.Outcome State Fault Refusal := runInst i Inst.loadHost s

/-- DIGEST_DUMP. -/
def execDigestDump (i : InstId) (s : State) : Host.Outcome State Fault Refusal := runInst i Inst.digestDump s

/-- COLONY_CHECK. -/
def execColonyCheck (i : InstId) (s : State) : Host.Outcome State Fault Refusal := runInst i Inst.colonyCheck s

/-- ECC_TEST_WRITE. -/
def execEccTestWrite (i : InstId) (source : HostData) (s : State) : Host.Outcome State Fault Refusal := runInst i (Inst.eccTestWrite source) s

/-- ECC_TEST_READ. -/
def execEccTestRead (i : InstId) (s : State) : Host.Outcome State Fault Refusal := runInst i Inst.eccTestRead s

/-- PCIE_READ_COMPLETION. -/
def execPcieReadCompletion (i : InstId) (cmd chunk : Nat) (result : HostData) (s : State) : Host.Outcome State Fault Refusal :=
  runInst i (Inst.pcieCompletion cmd chunk result) s

end Sys2Proof.Machine
end

