-- ==== Sys2Proof/Machine/Cold.lean ====
section
/-! DEFINITION. The cold tier: zones, the image a COLD_WRITE makes, the erase, and the read-back of a LOAD with source COLD
(R288 to R294, R400, R401). The layout of the header block and of the zone table is the model's own (log entry 47). -/

namespace Sys2Proof.Machine

/-- Blocks of 4,096 bytes in a zone (R288). -/
def zoneBlocks : Nat := 65536

/-- A partition that can be used has at least 16 zones (R288). -/
def ColdSt.usable (c : ColdSt) : Bool := decide (16 ≤ c.zones.length)

/-- Zones in a state (R290). -/
def ColdSt.inState (n : Nat) (c : ColdSt) : List Nat := (List.range c.zones.length).filter (fun k => (c.zones.getD k (Zone.fresh 3)).state == n)

/-- Zones in a state, the least written first, the lowest number on ties (R290). -/
def ColdSt.leastWritten (n : Nat) (c : ColdSt) : List Nat := sortBy (fun k => (c.zones.getD k (Zone.fresh 3)).written) (c.inState n)

/-- Zones changed. -/
def ColdSt.setZones (ks : List Nat) (f : Zone → Zone) (c : ColdSt) : ColdSt :=
  { c with zones := c.zones.mapIdx (fun k z => if ks.contains k then f z else z) }
def Zone.free (z : Zone) : Zone := { z with state := 0, ctx := 0, seq := 0 }

/-- SPARES applied at a zone-table write (R290, R400). -/
def ColdSt.applySpares (n : Nat) (c : ColdSt) : ColdSt :=
  let sp := c.leastWritten 1
  if sp.length < n then c.setZones ((c.leastWritten 0).take (n - sp.length)) (fun z => { z with state := 1 })
  else c.setZones (sp.drop n) (fun z => { z with state := 0 })

/-- The next zone to use: FREE before SPARE (R290). -/
def ColdSt.pick (c : ColdSt) : Option Nat := (c.leastWritten 0 ++ c.leastWritten 1).head?

/-- The next `n` zones taken for an image. -/
def ColdSt.take (x seq n : Nat) (c : ColdSt) : ColdSt × List Nat :=
  let ks := (c.leastWritten 0 ++ c.leastWritten 1).take n
  (c.setZones ks (fun z => { z with state := 2, ctx := x, seq := seq }), ks)

/-- A result of a cold-tier command: which, code, zones (R401). -/
def Inst.coldResult (which code zones : Nat) (x : Nat) (i : Inst) : Inst :=
  ({ i with cold := { i.cold with lastCode := code, lastKind := which } }).event 0x2101 (some x) [(20, 1, which), (21, 1, code), (24, 4, zones)]

/-- A zone retired (R290). -/
def Inst.retireZone (k reason : Nat) (i : Inst) : Inst :=
  ({ i with cold := i.cold.setZones [k] (fun (z : Zone) => { z with state := 3, ctx := 0, seq := 0 }) }).event 0x2102 none [(20, 1, reason), (24, 4, k)]

/- NVM command opcodes (R288). -/
namespace Nvm
def flush := 0x00
def write := 0x01
def read := 0x02
def deallocate := 0x09
end Nvm

/-- An NVMe command submitted (R288): `block` counts within the instance's partition. -/
def Inst.nvme (owner : Option Nat) (last : Bool) (op block n : Nat) (b : Bytes) (i : Inst) : Inst :=
  ({ i with cold := { i.cold with nvme := i.cold.nvme ++ [({ owner := owner, last := last } : NvCmd)] } }).emitOut
    (.nvme op (i.view.idx * i.cold.zones.length * zoneBlocks + block) n b)

/-- The cold part of a running command changed. -/
def Inst.setCold (serial : Nat) (c : Option ColdRun) (i : Inst) : Inst :=
  match i.cmd serial with
  | some r => i.putCmd { r with cold := c }
  | none => i

/-- The end of a COLD_WRITE (R291, R292, R311, R401). -/
def Inst.endWrite (r : Running) (code zones items : Nat) (i : Inst) : Inst :=
  (((i.endCmd r.serial).coldResult 0 code zones r.descr.ctx).finishCmd r.descr (if code = 0 then 0 else 2) code items).pump

/-- COLD_FULL (R292): the level rises, the previous image stays. -/
def Inst.coldFull (need : Nat) (i : Inst) : Inst := { i with cold := { i.cold with full := true, need := need } }

/-- The zones of a write that failed go back to FREE (R292). -/
def Inst.dropWrite (c : ColdRun) (i : Inst) : Inst :=
  { i with cold := i.cold.setZones (c.zones.filter (fun k => (i.cold.zones.getD k (Zone.fresh 3)).state == 2)) Zone.free }

/-- The chunks an instance serves for a context, ascending (class, range, chunk), with the lost home it stands in for (R291). -/
def Inst.coldChunks (x : Nat) (m : MapImage) (i : Inst) : List (ChunkId × Option Home) :=
  (sortBy (fun c => c.id) m.classes).flatMap (fun c =>
    let ids := if c.kind = 0 then
        (sortBy (fun p => p.1) (m.rangesOf (fun _ => true))).flatMap (fun p => (List.range (m.perRange c.id)).map (fun k =>
          ({ ctx := x, cls := c.id, q := p.1, k := k } : ChunkId)))
      else (sortBy (fun r => r.firstRange) (m.runs.filter (fun r => r.cls = c.id))).flatMap (fun r => (List.range r.count).map (fun k =>
          ({ ctx := x, cls := c.id, q := r.firstRange + k, k := 0 } : ChunkId)))
    ids.filterMap (fun k => (i.servesChunk m k).map (fun st => (k, st))))

/-- The contents and index entries of an image; none while a chunk must still be decoded or repaired (R291). -/
def Inst.coldContents (cs : List (ChunkId × Option Home)) (i : Inst) : Inst × Option (List (ChunkId × ChunkRec × Bytes)) :=
  cs.foldl (fun (a : Inst × Option (List (ChunkId × ChunkRec × Bytes))) p =>
    let w := a.1.wholeChunk p.1 p.2 none
    let zero := List.replicate 4096 (0 : Byte)
    match a.2, w.2 with
    | some l, .bytes v d at_ b => (w.1, some (l ++ [(p.1, { version := v, digest := d, attr := at_ }, b)]))
    | some l, .unwritten => (w.1, some (l ++ [(p.1, { version := 0, digest := crc64 zero, attr := 0 }, zero)]))
    | _, _ => (w.1, none)) (i, some [])

/-- An index entry: the layout of R236 with the class in byte 15 (R291). -/
def indexEntry (c : ChunkId) (r : ChunkRec) : Bytes := overlay (dumpEntry (c, r)) [(15, 1, c.cls)]

/-- Blocks of the index of `n` chunks, and of a whole image. -/
def indexBlocks (n : Nat) : Nat := cdiv (24 * n) 4096
def imageBlocks (n : Nat) : Nat := 1 + indexBlocks n + n

/-- The header block of an image (R291; log entry 47). -/
def coldHeader (m : MapImage) (x : Nat) (c : ColdRun) : Bytes :=
  packed 4096 ([(0, 4, 0x444C4F43), (4, 4, m.head.contract), (8, 1, x), (12, 2, ctxTagOf m.head.seed), (16, 8, c.step), (24, 8, c.seq),
    (32, 4, c.chunks), (36, 4, c.zones.length), (4088, 8, c.crc.toNat)] ++ (c.zones.take 1012).mapIdx (fun n z => (40 + 4 * n, 4, z)))

/-- The zone table (R290; log entry 47). -/
def ColdSt.table (c : ColdSt) : Bytes :=
  let body := c.zones.flatMap (fun z => packed 16 [(0, 1, z.state), (1, 1, z.ctx), (4, 4, z.written / 256), (8, 8, z.seq)])
  padTo 4096 (natLe 8 c.tableSeq ++ natLe 8 (crc64 (natLe 8 c.tableSeq ++ body)).toNat ++ body)

/-- The pieces of an image's body by zone: the first zone begins with the header block. -/
def coldPieces (body : Bytes) : List Bytes :=
  (body.take (65535 * 4096)) :: piecesOf (zoneBlocks * 4096) (body.drop (65535 * 4096))

/-- The piece of an image that lies in its `n`th zone written (R291). -/
def Inst.writePiece (serial : Nat) (c : ColdRun) (i : Inst) : Inst :=
  match c.pieces[c.next]?, c.zones[c.next]? with
  | some p, some z =>
    (i.setCold serial (some c)).nvme (some serial) true Nvm.write (z * zoneBlocks + (if c.next = 0 then 1 else 0)) (p.length / 4096) p
  | _, _ => (i.setCold serial (some { c with stage := .flush1 })).nvme (some serial) true Nvm.flush 0 0 []

/-- The contents of a COLD_WRITE taken, once every chunk is at hand, and its first piece written (R291, R292). -/
def Inst.gatherCold (r : Running) (i : Inst) : Inst :=
  match i.image r.descr.ctx with
  | none => i.endWrite r 2 0 0
  | some m =>
    let x := r.descr.ctx
    let g := i.coldContents (i.coldChunks x m)
    match g.2 with
    | none => g.1
    | some l =>
      let idx := l.flatMap (fun e => indexEntry e.1 e.2.1)
      let body := padTo 4096 idx ++ l.flatMap (fun e => e.2.2)
      let z := g.1.cold.take x g.1.cold.nextSeq (cdiv (imageBlocks l.length) zoneBlocks)
      let c : ColdRun := { stage := .pieces, seq := g.1.cold.nextSeq, step := (g.1.ctx x).run.step, chunks := l.length, zones := z.2,
                           pieces := coldPieces body, next := 0, crc := crc64 idx, index := [] }
      ({ g.1 with cold := { z.1 with nextSeq := z.1.nextSeq + 1 } }).writePiece r.serial c

/-- The code a COLD_WRITE is refused with, 0 for none (R288, R289, R291, R292). -/
def Inst.coldWriteCode (d : Descr) (i : Inst) : Nat × Nat :=
  let x := d.ctx
  let chunks := match i.image x with | some m => i.coldChunks x m | none => []
  let need := cdiv (imageBlocks chunks.length) zoneBlocks
  if !i.view.coldPriv.contains x then (4, need)
  else if !i.cold.usable then (5, need)
  else if !(i.ctx x).live || !(i.ctx x).run.paused || i.opt.flights.any (fun f => f.ctx = x) ||
      chunks.any (fun c => decide (0 < i.lagOf c.1)) || i.cmdq.running.any (fun r => r.descr.op = 6 ∧ r.descr.ctx = x) then (2, need)
  else if (i.cold.inState 0).length + (i.cold.inState 1).length < need then (1, need)
  else (0, need)

/-- COLD_WRITE (R291): the queue's first descriptor starts where it is one; one that waits for decodes goes on. -/
def Inst.coldWrite (i : Inst) : Inst :=
  if !i.running then i
  else match i.startable 0x06 with
    | some d =>
      let j := i.takeCmd
      let t : Inst := if j.cold.tableSeq = 0 then { j with cold := j.cold.applySpares (bits (j.reg 0x21 0x100 8) 7 0) } else j
      let c := t.coldWriteCode d
      if c.1 ≠ 0 then
        (((if c.1 = 1 then t.coldFull c.2 else t).coldResult 0 c.1 0 d.ctx).finishCmd d 2 c.1 0).pump
      else
        let start : ColdRun := { stage := .gather, seq := 0, step := 0, chunks := 0, zones := [], pieces := [], next := 0, crc := 0, index := [] }
        let r : Running := { Running.fresh d with serial := t.cmdq.next, cold := some start }
        ((t.runCmd r).gatherCold r).pump
    | none =>
      match i.cmdq.running.find? (fun r => match r.cold with | some c => c.stage == .gather | none => false) with
      | some r => (i.gatherCold r).pump
      | none => i.startWait 0x06

/-- The zone table written after a change (R290): the two copies alternate. -/
def Inst.writeTable (serial : Nat) (i : Inst) : Inst :=
  let s := { i.cold.applySpares (bits (i.reg 0x21 0x100 8) 7 0) with tableSeq := i.cold.tableSeq + 1 }
  let j : Inst := { i with cold := s }
  j.nvme (some serial) true Nvm.write (s.tableSeq % 2 * zoneBlocks) (s.table.length / 4096) s.table

/-- A written piece's volume added to its zone; a zone at its wear limit is retired and its piece written again elsewhere
(R290, R292). -/
def Inst.pieceWritten (r : Running) (c : ColdRun) (i : Inst) : Inst :=
  let z := c.zones.getD c.next 0
  let n := ((c.pieces.getD c.next []).length / 4096) + (if c.next = 0 then 1 else 0)
  let limit := (i.reg 0x21 0x104 0x800 % 2 ^ 16) * 2 ^ 28
  let j : Inst := { i with cold := i.cold.setZones [z] (fun y => { y with written := y.written + n }) }
  if limit ≤ (j.cold.zones.getD z (Zone.fresh 3)).written then
    let k := j.retireZone z 0
    match k.cold.pick with
    | none => (((k.dropWrite c).coldFull (c.zones.length)).endWrite r 1 0 0)
    | some y =>
      let t := k.cold.setZones [y] (fun w => { w with state := 2, ctx := r.descr.ctx, seq := c.seq })
      ({ k with cold := t }).writePiece r.serial { c with zones := setAt c.next y c.zones }
  else j.writePiece r.serial { c with next := c.next + 1 }

/-- The image sealed (R291): it replaces the context's previous one, whose zones are FREE. -/
def Inst.seal (r : Running) (c : ColdRun) (i : Inst) : Inst :=
  let x := r.descr.ctx
  let old := (i.cold.images.filter (fun m => m.ctx = x)).flatMap (fun m => m.zones)
  let s := { i.cold.setZones old Zone.free with
    images := i.cold.images.filter (fun m => m.ctx ≠ x) ++ [{ ctx := x, seq := c.seq, step := c.step, chunks := c.chunks, zones := c.zones }],
    full := false, need := 0 }
  (({ i with cold := s } : Inst).setCold r.serial (some { c with stage := .table, zones := old, next := c.zones.length })).writeTable r.serial

/-- An NVMe command of a COLD_WRITE that succeeded (R291). -/
def Inst.writeStep (r : Running) (c : ColdRun) (i : Inst) : Inst :=
  match c.stage with
  | .pieces => i.pieceWritten r c
  | .flush1 =>
    match i.image r.descr.ctx with
    | some m => (i.setCold r.serial (some { c with stage := .header })).nvme (some r.serial) true Nvm.write (c.zones.headD 0 * zoneBlocks) 1
        (coldHeader m r.descr.ctx c)
    | none => (i.dropWrite c).endWrite r 2 0 0
  | .header => (i.setCold r.serial (some { c with stage := .flush2 })).nvme (some r.serial) true Nvm.flush 0 0 []
  | .flush2 => i.seal r c
  | .table => (i.setCold r.serial (some { c with stage := .tableFlush })).nvme (some r.serial) true Nvm.flush 0 0 []
  | .tableFlush =>
    if c.zones.isEmpty then i.endWrite r 0 c.next c.chunks
    else
      let j := i.setCold r.serial (some { c with stage := .dealloc })
      c.zones.zipIdx.foldl (fun (i : Inst) z => i.nvme (some r.serial) (z.2 + 1 == c.zones.length) Nvm.deallocate (z.1 * zoneBlocks) zoneBlocks []) j
  | _ => i.endWrite r 0 c.next c.chunks

/-- An NVMe command of a COLD_WRITE that failed (R292): a failed write of the image retires its zone. -/
def Inst.writeFailed (r : Running) (c : ColdRun) (i : Inst) : Inst :=
  match c.stage with
  | .pieces => (((i.retireZone (c.zones.getD c.next 0) 1).dropWrite c).endWrite r 3 0 0)
  | .header => (((i.retireZone (c.zones.headD 0) 1).dropWrite c).endWrite r 3 0 0)
  | .flush1 => (i.dropWrite c).endWrite r 3 0 0
  | .flush2 => (i.dropWrite c).endWrite r 3 0 0
  | _ => i.endWrite r 3 0 0

/-- The end of a LOAD with source COLD that is refused as a whole (R293, R311, R401). -/
def Inst.refuseLoad (r : Running) (code : Nat) (i : Inst) : Inst :=
  (((i.endCmd r.serial).coldResult 2 code 0 r.descr.ctx).finishCmd r.descr 2 code 0).pump

/-- The blocks of an image from one on, up to the end of their zone, read. -/
def Inst.readBlocks (serial : Nat) (zones : List Nat) (a n : Nat) (i : Inst) : Inst :=
  let m := min n (zoneBlocks - a % zoneBlocks)
  i.nvme (some serial) true Nvm.read (zones.getD (a / zoneBlocks) 0 * zoneBlocks + a % zoneBlocks) m []

/-- The next chunk of a COLD LOAD read, or the command left to its commits (R293). -/
def Inst.nextCold (serial : Nat) : Nat → Inst → Inst
  | 0, i => i
  | fuel + 1, i =>
    match i.cmd serial with
    | none => i
    | some r =>
      match r.cold with
      | none => i
      | some c =>
        if r.chunks.any (fun k => k.phase == .reading) then i
        else match r.chunks.find? (fun k => k.phase == .waiting) with
          | none =>
            let j := (i.setCold serial none).coldResult 2 0 0 r.descr.ctx
            match j.cmd serial with
            | some n => j.settleLoad n
            | none => j
          | some l =>
            let t := i.loadTest l.id r.descr.loadVersion
            match t.2 with
            | .wait => t.1
            | .refuse s => Inst.nextCold serial fuel (t.1.putCmd (r.note l.id s))
            | .accept =>
              match c.index.find? (fun e => e.1 = l.id) with
              | none => Inst.nextCold serial fuel (t.1.putCmd (r.note l.id 6))
              | some e =>
                (t.1.putCmd { r with chunks := r.chunks.map (fun k => if k.id = l.id then { k with phase := .reading } else k) }).readBlocks serial
                  c.zones (1 + indexBlocks c.chunks + e.2.2) 1

/-- A COLD LOAD's chunks looked at. -/
def Inst.advanceCold (serial : Nat) (i : Inst) : Inst :=
  match i.cmd serial with
  | some r => i.nextCold serial (r.chunks.length + 1)
  | none => i

/-- A cold load that is reading its chunks. -/
def Running.readsChunks (r : Running) : Bool := match r.cold with | some c => c.stage == .readChunks | none => false

/-- LOAD with source COLD (R289, R293): the queue's first descriptor starts where it is one; one that waits goes on. -/
def Inst.coldLoad (i : Inst) : Inst :=
  if !i.running then i
  else
    let j : Inst := match i.startable 0x03 with
      | some d =>
        if !d.isCold then i
        else
          let k := i.takeCmd
          let r : Running := { Running.fresh d with serial := k.cmdq.next, chunks := k.loadChunks d }
          if !k.view.coldPriv.contains d.ctx then (k.coldResult 2 4 0 d.ctx).finishCmd d 2 4 0
          else if !k.cold.usable then (k.coldResult 2 5 0 d.ctx).finishCmd d 2 5 0
          else
            let c0 : ColdRun := { stage := .readChunks, seq := 0, step := 0, chunks := 0, zones := [], pieces := [], next := 0, crc := 0, index := [] }
            match k.cold.images.find? (fun m => m.ctx = d.ctx) with
            | none => k.runCmd { r with cold := some c0 }
            | some m =>
              let c : ColdRun := { c0 with stage := .readHeader, seq := m.seq, step := m.step, chunks := m.chunks, zones := m.zones }
              (k.runCmd { r with cold := some c }).readBlocks r.serial m.zones 0 1
      | none => i.startWait 0x03
    (((j.cmdq.running.filter Running.readsChunks).map (fun r => r.serial)).foldl
      (fun (i : Inst) n => i.advanceCold n) j).pump

/-- The index as read (R291). -/
def parseIndex (x : Nat) (b : Bytes) : List (ChunkId × BitVec 64 × Nat) :=
  (piecesOf 24 b).mapIdx (fun n e =>
    ({ ctx := x, cls := field 15 1 e, q := field 0 6 e, k := field 6 1 e }, BitVec.ofNat 64 (field 16 8 e), n))

/-- A read of a COLD LOAD that succeeded (R293). -/
def Inst.readStep (r : Running) (c : ColdRun) (b : Bytes) (i : Inst) : Inst :=
  let x := r.descr.ctx
  match c.stage with
  | .readHeader =>
    let tag := match i.image x with | some m => some (ctxTagOf m.head.seed) | none => none
    if field 0 4 b ≠ 0x444C4F43 ∨ field 24 8 b ≠ c.seq ∨ field 32 4 b ≠ c.chunks then i.refuseLoad r 6
    else if tag ≠ some (field 12 2 b) then i.refuseLoad r 6
    else (i.putCmd { r with cold := some { c with stage := .readIndex, crc := BitVec.ofNat 64 (field 4088 8 b), next := 1 } }).readBlocks r.serial
      c.zones 1 (indexBlocks c.chunks)
  | .readIndex =>
    let got := c.pieces ++ [b]
    let next := c.next + b.length / 4096
    let left := 1 + indexBlocks c.chunks - next
    if 0 < left ∧ 4096 ≤ b.length then
      (i.putCmd { r with cold := some { c with pieces := got, next := next } }).readBlocks r.serial c.zones next left
    else
      let idx := slice 0 (24 * c.chunks) got.flatten
      if crc64 idx ≠ c.crc then i.refuseLoad r 6
      else (i.putCmd { r with cold := some { c with stage := .readChunks, pieces := [], index := parseIndex x idx } }).advanceCold r.serial
  | .readChunks =>
    match r.chunks.find? (fun k => k.phase == .reading) with
    | none => i
    | some l =>
      let ok := match c.index.find? (fun e => e.1 = l.id) with | some e => crc64 (slice 0 4096 b) == e.2.1 | none => false
      (if ok then i.loadBytes r.serial l.id b else i.putCmd (r.note l.id 7)).advanceCold r.serial
  | _ => i

/-- A read of a COLD LOAD that failed (R285). -/
def Inst.readFailed (r : Running) (c : ColdRun) (i : Inst) : Inst :=
  match c.stage with
  | .readChunks =>
    match r.chunks.find? (fun k => k.phase == .reading) with
    | some l => (i.putCmd (r.note l.id 8)).advanceCold r.serial
    | none => i
  | _ => i.refuseLoad r 3

/-- NVME_COMPLETION (R288, R291 to R294): of the oldest command outstanding. -/
def Inst.nvmeCompletion (ok : Bool) (b : Bytes) (i : Inst) : Inst :=
  match i.cold.nvme with
  | [] => i
  | n :: rest =>
    let j : Inst := { i with cold := { i.cold with nvme := rest } }
    match n.owner.bind j.cmd with
    | none => j
    | some r =>
      match r.cold with
      | none => j
      | some c =>
        let k := match r.descr.op, ok with
          | 6, true => if n.last then j.writeStep r c else j
          | 6, false => j.writeFailed r c
          | _, true => j.readStep r c b
          | _, false => j.readFailed r c
        k.pump

/-- The erase of a context's images (R294): its zones are FREE and are deallocated. Answers whether it was accepted. -/
def Inst.coldErase (x : Nat) (i : Inst) : Inst × Bool :=
  if i.cmdq.running.any (fun r => r.cold.isSome && decide (r.descr.ctx = x)) then (i.coldResult 1 2 0 x, false)
  else
    let ks := (List.range i.cold.zones.length).filter (fun k => let z := i.cold.zones.getD k (Zone.fresh 3); z.state == 2 && z.ctx == x)
    let s := { i.cold.setZones ks Zone.free with images := i.cold.images.filter (fun m => m.ctx ≠ x) }
    let room := (s.inState 0).length + (s.inState 1).length
    let t : ColdSt := if s.full ∧ s.need ≤ room then { s with full := false, need := 0 } else s
    let j : Inst := { i with cold := t }
    ((ks.foldl (fun (i : Inst) k => i.nvme none true Nvm.deallocate (k * zoneBlocks) zoneBlocks []) j).coldResult 1 0 ks.length x, true)

/-- COLD_LOAD. -/
def execColdLoad (i : InstId) (s : State) : Host.Outcome State Fault Refusal := runInst i Inst.coldLoad s

/-- COLD_WRITE. -/
def execColdWrite (i : InstId) (s : State) : Host.Outcome State Fault Refusal := runInst i Inst.coldWrite s

/-- NVME_COMPLETION. -/
def execNvmeCompletion (i : InstId) (ok : Bool) (bytes : Bytes) (s : State) : Host.Outcome State Fault Refusal :=
  runInst i (Inst.nvmeCompletion ok bytes) s

end Sys2Proof.Machine
end

