-- ==== Sys2Proof/Machine/RegMap.lean ====
section
/-! DEFINITION. The register map: the writable registers of every page (R297, R359 to R404), the rights of the initiators (R299)
and the register file of a section. -/

namespace Sys2Proof.Machine

/-- How a register is written (R11, R297, R303). -/
inductive Acc where
  | rw | wo | rwg
  deriving DecidableEq, Repr

/-- A writable register, or `n` of them in consecutive words. `sel` marks the select, view and index registers of R299, `rwl` those a
LOCK freezes, `lo` to `hi` the range a write is judged by. -/
structure RegSpec where
  page   : Nat
  off    : Nat
  n      : Nat := 1
  acc    : Acc := .rw
  mask   : Nat := 0xFFFFFFFF
  reset  : Nat := 0
  banked : Bool := false
  sel    : Bool := false
  rwl    : Bool := false
  mgmt   : Bool := false
  host   : Bool := false
  lo     : Nat := 0
  hi     : Nat := 0xFFFFFFFF
  deriving DecidableEq, Repr

/-- Banked select, view and index registers. -/
def selReg (page off mask : Nat) : RegSpec := { page := page, off := off, mask := mask, banked := true, sel := true }

/-- Registers of the GLOBAL, AON, MUART and TEST pages (R363, R365, R403, R404). -/
def dieSpecs : List RegSpec :=
  [selReg 0x00 0x100 0x7, selReg 0x00 0x104 0x3F,
   { page := 0x00, off := 0x108, acc := .rwg, mask := 1, mgmt := true },
   { page := 0x00, off := 0x10C, mask := 0xFF, reset := 0xB4, rwl := true, mgmt := true, lo := 80, hi := 180 },
   selReg 0x01 0x104 0x3FF7,
   { page := 0x01, off := 0x10C, mask := 0xFFFFFF07, mgmt := true },
   { page := 0x01, off := 0x110, n := 8, mgmt := true },
   { page := 0x01, off := 0x144, mask := 0x3F, mgmt := true }, { page := 0x01, off := 0x148, mask := 0x3F, host := true },
   selReg 0x01 0x14C 0x3F, selReg 0x01 0x184 0xFF,
   { page := 0x02, off := 0x018, mask := 0x1FFFF, reset := 0x1001B, rwl := true },
   { page := 0x02, off := 0x104, acc := .wo, mask := 0xFF },
   { page := 0x03, off := 0x100, acc := .rwg, mask := 1, rwl := true },
   { page := 0x03, off := 0x104, mask := 0x700FF, rwl := true }]

/-- Registers of the INST, MAP, CTX, CODEC, DELTA and FAULT pages (R367 to R377). -/
def instSpecsA : List RegSpec :=
  [{ page := 0x10, off := 0x100, mask := 0x03FFFFFF, reset := 0x02100032 },
   { page := 0x10, off := 0x104, acc := .rwg, mask := 1, mgmt := true }, { page := 0x10, off := 0x108, acc := .rwg, mask := 1 },
   { page := 0x10, off := 0x120, acc := .wo }, { page := 0x10, off := 0x12C, acc := .rwg },
   { page := 0x10, off := 0x130, mask := 0xFFFFF000, banked := true }, { page := 0x10, off := 0x134, banked := true },
   { page := 0x10, off := 0x144, mask := 0x3FF, mgmt := true }, { page := 0x10, off := 0x148, mask := 0x3FF, host := true },
   selReg 0x10 0x14C 0x3FF, selReg 0x10 0x184 0xFF,
   selReg 0x11 0x100 0x33F, { page := 0x11, off := 0x104, acc := .rwg, mask := 0xFFFF003F },
   { page := 0x12, off := 0x100, acc := .rwg }, { page := 0x12, off := 0x118, mask := 1, mgmt := true },
   { page := 0x12, off := 0x120, n := 8 }, { page := 0x12, off := 0x140 }, { page := 0x12, off := 0x144, mask := 0xFFFF },
   { page := 0x12, off := 0x148, acc := .wo },
   { page := 0x13, off := 0x100, mask := 0x7FF, reset := 0x100, banked := true, sel := true },
   { page := 0x13, off := 0x108, mask := 0xFF, banked := true }, { page := 0x13, off := 0x10C, mask := 0xFF, banked := true },
   { page := 0x13, off := 0x120, acc := .wo },
   selReg 0x14 0x100 0x3F, selReg 0x15 0x120 0xFF3F, selReg 0x15 0x144 0xF]

/-- Registers of the MEMB, FABRIC, LEDGER, OPT, ARRAY and EMIT pages (R379 to R390). -/
def instSpecsB : List RegSpec :=
  [{ page := 0x16, off := 0x018, mask := 1, mgmt := true },
   { page := 0x16, off := 0x100, mask := 0x7F, reset := 0xA, rwl := true, lo := 1, hi := 64 },
   { page := 0x16, off := 0x104, mask := 0x7F, reset := 0x40, rwl := true, lo := 1, hi := 64 },
   { page := 0x16, off := 0x108, reset := 0x2710, rwl := true }, { page := 0x16, off := 0x10C, mask := 0xFFFF, reset := 0x40, rwl := true },
   { page := 0x16, off := 0x110, mask := 0xF, reset := 2, rwl := true }, { page := 0x16, off := 0x114, mask := 0x1FFFFFF, rwl := true },
   selReg 0x16 0x134 0x3F,
   { page := 0x17, off := 0x100, mask := 0x3FF, reset := 0x14, rwl := true, lo := 2, hi := 1000 },
   { page := 0x17, off := 0x104, mask := 0x3FFF, reset := 0x64, rwl := true, lo := 10, hi := 10000 },
   selReg 0x17 0x130 0x3FF,
   { page := 0x18, off := 0x100, mask := 0x1F1F1F, reset := 0x10204, rwl := true }, selReg 0x18 0x118 0x3F,
   { page := 0x19, off := 0x100, mask := 0xFFFF, reset := 0xA, rwl := true, lo := 1 },
   selReg 0x19 0x108 0x13F, selReg 0x19 0x124 0x1F, selReg 0x19 0x140 0x1F1F3F, { page := 0x19, off := 0x160, n := 8 },
   { page := 0x1A, off := 0x100, n := 3, banked := true }, { page := 0x1A, off := 0x10C, mask := 0x3F01, banked := true },
   { page := 0x1A, off := 0x110, acc := .wo },
   selReg 0x1B 0x10C 0xF, { page := 0x1B, off := 0x120, n := 5, banked := true }, { page := 0x1B, off := 0x134, mask := 0xFFFF, banked := true },
   { page := 0x1B, off := 0x138, reset := 1, banked := true }, { page := 0x1B, off := 0x13C, banked := true },
   { page := 0x1B, off := 0x140, mask := 0xFFFF, banked := true }, { page := 0x1B, off := 0x144, banked := true }]

/-- Registers of the ECC, SCRUB, POOL, MBOX, TELEM and COLD pages (R391 to R400). -/
def instSpecsC : List RegSpec :=
  [{ page := 0x1C, off := 0x018, mask := 1, rwl := true },
   { page := 0x1C, off := 0x100, mask := 0xFFFF, reset := 0x40, rwl := true, lo := 1 }, selReg 0x1C 0x10C 0x3F,
   { page := 0x1D, off := 0x100, mask := 0x3F, reset := 4, rwl := true, lo := 1, hi := 64 },
   { page := 0x1D, off := 0x104, mask := 0x1FFFF, reset := 0x708, rwl := true, lo := 60, hi := 86400 },
   { page := 0x1D, off := 0x108, mask := 0x1FFFF, reset := 0x5A0, rwl := true, lo := 60, hi := 86400 },
   { page := 0x1E, off := 0x100, mask := 0x3F }, { page := 0x1E, off := 0x114, acc := .wo }, { page := 0x1E, off := 0x11C, acc := .wo, mask := 0x1FF },
   { page := 0x1E, off := 0x120, mask := 0x3FF, reset := 192, rwl := true }, { page := 0x1E, off := 0x124, mask := 0x3FF, reset := 128, rwl := true },
   { page := 0x1E, off := 0x128, n := 2, mask := 0x3FF, reset := 64, rwl := true },
   { page := 0x1E, off := 0x130, n := 2, mask := 0x3FF, reset := 32, rwl := true },
   { page := 0x1E, off := 0x138, acc := .wo }, selReg 0x1E 0x13C 0x7, selReg 0x1E 0x148 0x1FF,
   { page := 0x1F, off := 0x100, n := 8, banked := true }, { page := 0x1F, off := 0x120, acc := .wo }, selReg 0x1F 0x124 0x107,
   { page := 0x1F, off := 0x14C, acc := .wo },
   selReg 0x20 0x100 0x1FF, { page := 0x20, off := 0x10C, banked := true }, { page := 0x20, off := 0x110, acc := .wo },
   { page := 0x20, off := 0x114, acc := .wo }, { page := 0x20, off := 0x120, mask := 0x7FFFFFFF }, { page := 0x20, off := 0x124, mask := 0x7FFFFFF }, { page := 0x20, off := 0x128, mask := 0xFFFF },
   { page := 0x20, off := 0x12C, mask := 0xFFFFFFF }, selReg 0x20 0x134 0x1F,
   { page := 0x20, off := 0x140, mask := 0x1FFFF, reset := 0xE10, rwl := true, hi := 86400 },
   { page := 0x21, off := 0x100, mask := 0xFF, reset := 8, rwl := true }, { page := 0x21, off := 0x104, mask := 0xFFFF, reset := 0x800, rwl := true, lo := 1 },
   { page := 0x21, off := 0x108, acc := .rwg, mask := 0x3F }, selReg 0x21 0x11C 0x3F]

/-- Every writable register from offset 0x018 on, the page header apart. -/
def regSpecs : List RegSpec := dieSpecs ++ instSpecsA ++ instSpecsB ++ instSpecsC

/-- The writable register at an offset of a page. -/
def regSpec (page off : Nat) : Option RegSpec :=
  regSpecs.find? (fun r => decide (r.page = page) && decide (r.off ≤ off) && decide (off < r.off + 4 * r.n))

/-- The header registers every page has (R297): INT_ENABLE, LOCK and the guard registers. -/
def isGuardReg (off : Nat) : Bool := off == 0x020 || off == 0x024 || off == 0x028

/-- The die-wide pages and the instance pages (R295). -/
def diePage (page : Nat) : Bool := decide (page ≤ 0x03)
def instPage (page : Nat) : Bool := decide (0x10 ≤ page) && decide (page ≤ 0x22)

/-- What DBG may write while the TEST LOCK is clear (R299). -/
def dbgMay (page off : Nat) : Bool :=
  page == 0x02 || page == 0x03 || (match regSpec page off with | some r => r.sel | none => false) ||
    (page == 0x10 && off == 0x120) || (page == 0x1F && decide (0x100 ≤ off) && decide (off ≤ 0x120)) ||
    (page == 0x1E && (off == 0x114 || off == 0x11C)) || (page == 0x1A && decide (0x100 ≤ off) && decide (off ≤ 0x110))

/-- Whether an initiator may write a register (R299). The rights of a guarded register are judged at GUARD_B (R303). -/
def mayWrite (init : Initiator) (testLock : Bool) (page off : Nat) : Bool :=
  match init with
  | .mgmt => match regSpec page off with | some r => !r.host | none => true
  | .host => match regSpec page off with | some r => !r.mgmt | none => true
  | .seq _ => page == 0x1F || (page == 0x19 && decide (0x160 ≤ off) && decide (off ≤ 0x17C))
  | .dbg => !testLock && dbgMay page off

/-- Whether an initiator may read a page: SEQ only the pages of an instance (R299). -/
def mayRead (init : Initiator) (page : Nat) : Bool := match init with | .seq _ => instPage page | _ => true

/-- The key of a register, and of an initiator's copy of a banked one (R298, R360). -/
def regKey (page off : Nat) : Nat := page * 0x1000 + off
def bankKey (bank page off : Nat) : Nat := regKey page off + (bank + 1) * 2 ^ 24

/-- What a register holds for an initiator: its banked copy, the shared value, or the value at reset. -/
def CtlSt.stored (bank page off : Nat) (c : CtlSt) : Word :=
  match c.regs.find (bankKey bank page off) with
  | some w => w
  | none => match c.regs.find (regKey page off) with
    | some w => w
    | none => match regSpec page off with
      | some r => if r.acc = .rw then w32 r.reset else 0
      | none => 0

/-- A register set, in the initiator's copy where it is banked. -/
def CtlSt.store (bank page off : Nat) (w : Word) (c : CtlSt) : CtlSt :=
  let banked := match regSpec page off with | some r => r.banked | none => false
  { c with regs := c.regs.put (if banked then bankKey bank page off else regKey page off) w }

/-- A banked copy that only a latch writes (R360), and several in consecutive words. -/
def CtlSt.latch (bank page off : Nat) (w : Word) (c : CtlSt) : CtlSt := { c with regs := c.regs.put (bankKey bank page off) w }
def CtlSt.latchAll (bank page : Nat) : Nat → List Word → CtlSt → CtlSt
  | _, [], c => c
  | off, w :: t, c => (c.latch bank page off w).latchAll bank page (off + 4) t

/-- A guard sequence of an initiator on a page (R303). -/
def guardKey (page bank : Nat) : Nat := page * 4 + bank
def CtlSt.guard (bank page : Nat) (c : CtlSt) : Guard :=
  c.guards.getD { target := 0, valueA := none, timeA := 0 } (guardKey page bank)
def CtlSt.setGuard (bank page : Nat) (g : Guard) (c : CtlSt) : CtlSt := { c with guards := c.guards.put (guardKey page bank) g }

/-- GUARD_TARGET restarts the sequence; GUARD_A gives it its value (R303). -/
def CtlSt.guardTarget (bank page : Nat) (w : Word) (c : CtlSt) : CtlSt :=
  c.setGuard bank page { target := bits w.toNat 11 0, valueA := none, timeA := 0 }
def CtlSt.guardA (bank page : Nat) (w : Word) (now : Nat) (c : CtlSt) : CtlSt :=
  c.setGuard bank page { c.guard bank page with valueA := some w, timeA := now }

/-- The sequence ended, whatever its outcome. -/
def CtlSt.guardEnd (bank page : Nat) (c : CtlSt) : CtlSt := c.setGuard bank page { c.guard bank page with valueA := none }

/-- Whether a register of a page is guarded. -/
def guarded (page off : Nat) : Bool := match regSpec page off with | some r => r.acc == .rwg | none => false

/-- The reason a GUARD_B write faults, if it does (R303, R383): 2 no GUARD_A, 1 timeout, 0 mismatch, 3 not RWG. -/
def Guard.fault (page now : Nat) (w : Word) (g : Guard) : Option Nat :=
  match g.valueA with
  | none => some 2
  | some v =>
    if g.timeA + 64 < now then some 1
    else if w ≠ ~~~v then some 0
    else if !guarded page g.target then some 3
    else none

/-- What an access ends in. -/
inductive BusRes where
  | value (w : Word)
  | done
  | error
  | refused
  | stalled
  deriving DecidableEq, Repr

end Sys2Proof.Machine
end

