-- ==== Sys2Proof/Machine/RegCode.lean ====
section
/-! DEFINITION. What the INST, MAP, CTX, CODEC, DELTA, FAULT, MEMB, FABRIC and LEDGER pages read (R367 to R381). -/

namespace Sys2Proof.Machine

/-- A bit for each context of which a property holds. -/
def Inst.ctxMask (p : Nat → CtxSt → Bool) (i : Inst) : Nat := ((i.ctxs.filter (fun c => p c.1 c.2)).map (fun c => 2 ^ c.1)).sum

/-- Bits of a word: flags by position, and fields. -/
def flagsOf (l : List (Nat × Bool)) : Nat := (l.map (fun p => if p.2 then 2 ^ p.1 else 0)).sum

/-- The context an initiator's VIEW names (R370, R376, R379, R381, R400). -/
def Inst.view_ (bank page off : Nat) (i : Inst) : Nat := bits (i.ctl.stored bank page off).toNat 5 0

/-- JCS_INST_STATUS (R368). -/
def Inst.statusInst (i : Inst) : Nat :=
  let r := i.ctl.logs.ring
  flagsOf [(0, i.pw.ready), (1, i.pw.imageBad), (2, i.pw.trialReady), (3, i.pw.state == .faulted), (4, i.pw.offline), (5, i.pw.evacuate),
    (6, r.mtail != r.head), (7, r.htail != r.head)] + 2 ^ 8 * i.pw.state.code

/-- Registers of the INST page (R367). -/
def Inst.readInst (bank off : Nat) (i : Inst) : Option Nat :=
  match off with
  | 0x104 => some (b2n i.pw.offline)
  | 0x108 => some (b2n i.pw.evacuate)
  | 0x10C => some (flagsOf [(0, i.boot.slotB), (1, i.boot.trial), (2, i.boot.replaced)])
  | 0x110 => some i.boot.version
  | 0x124 => some i.cmdq.free
  | 0x128 => some (i.cmdq.orphans.getD 0 bank)
  | 0x140 => some i.ctl.logs.ring.head
  | 0x144 => some i.ctl.logs.ring.mtail
  | 0x148 => some i.ctl.logs.ring.htail
  | 0x180 => some i.ctl.logs.oHead
  | _ => none

/-- JCS_MAP_STATUS: the word VIEW.WORD selects (R371). -/
def Inst.statusMap (bank : Nat) (i : Inst) : Nat :=
  let c := i.ctx (i.view_ bank 0x11 0x100)
  match bits (i.ctl.stored bank 0x11 0x100).toNat 9 8 with
  | 0 => c.map.loadResult + 2 ^ 8 * c.map.slot + 2 ^ 10 * b2n (!c.map.barred.isEmpty) + 2 ^ 16 * c.map.commitResult + 2 ^ 20 * c.map.state
  | 1 => c.mapVersion
  | 2 => match c.map.staged with | some m => m.head.version | none => 0
  | _ => i.livePeers.length + 2 ^ 16 * i.hb.partners.length

/-- Registers of the MAP page (R370). -/
def Inst.readMap (bank off : Nat) (i : Inst) : Option Nat :=
  let c := i.ctx (i.view_ bank 0x11 0x100)
  let staged := match c.map.staged with | some m => m.head.crc.toNat | none => 0
  let live := if c.map.state = 0 then 0 else match c.map.image with | some m => m.head.crc.toNat | none => 0
  let valid := i.ctxMask (fun _ c => decide (c.map.slot = 1))
  let busy := i.ctxMask (fun _ c => decide (c.map.slot = 2))
  match off with
  | 0x108 => some (staged % 2 ^ 32)
  | 0x10C => some (staged / 2 ^ 32)
  | 0x110 => some (live % 2 ^ 32)
  | 0x114 => some (live / 2 ^ 32)
  | 0x118 => some c.imageVersion
  | 0x11C => some c.memb.lost.length
  | 0x120 => some (valid % 2 ^ 32)
  | 0x124 => some (valid / 2 ^ 32)
  | 0x128 => some (busy % 2 ^ 32)
  | 0x12C => some (busy / 2 ^ 32)
  | _ => none

/-- The armed set an update of the next step would use (R183, R372), with its effective step. -/
def Inst.activeSet (x : Nat) (i : Inst) : Option (Nat × List Word) :=
  (i.ctx x).user.armed.reverse.find? (fun a => decide (a.1 ≤ (i.ctx x).run.step + 1))

/-- JCS_CTX_STATUS (R373). -/
def Inst.statusCtx (x : Nat) (i : Inst) : Nat :=
  let c := i.ctx x
  c.map.state + flagsOf [(2, (i.image x).any (fun m => m.detStrict)), (3, c.memb.fenced), (4, c.run.paused), (5, c.run.evacuate || i.pw.evacuate),
    (6, c.memb.offline), (7, !c.run.halted.isEmpty), (8, !c.memb.lost.isEmpty), (9, i.view.coldPriv.contains x),
    (10, c.user.armed.any (fun a => decide (c.run.step < a.1))), (11, c.user.late), (12, c.memb.saturated)]

/-- Registers of the CTX page (R305, R372); the LO halves are those of `Inst.pair`. -/
def Inst.readCtx (x off : Nat) (i : Inst) : Option Nat :=
  let c := i.ctx x
  let act := i.activeSet x
  match off with
  | 0x100 => some (flagsOf [(8, c.run.paused), (9, c.run.evacuate || i.pw.evacuate), (10, c.memb.offline), (11, !c.run.halted.isEmpty)] +
      2 ^ 12 * c.run.lastCmd)
  | 0x114 => some (if c.map.state = 0 then 0 else match c.map.image with | some m => ctxTagOf m.head.seed | none => 0)
  | 0x118 => some (b2n (i.view.coldPriv.contains x))
  | 0x140 => some (c.user.pendStep % 2 ^ 32)
  | 0x144 => some (c.user.pendStep / 2 ^ 32)
  | o =>
    if 0x120 ≤ o ∧ o ≤ 0x13C then some (c.user.pending.getD ((o - 0x120) / 4) 0).toNat
    else if 0x150 ≤ o ∧ o ≤ 0x16C then some (match act with | some a => (a.2.getD ((o - 0x150) / 4) 0).toNat | none => 0)
    else none

/-- Registers of the CODEC page (R375): the coefficients of R76 and the field arithmetic of R74. -/
def Inst.readCodec (bank off : Nat) (i : Inst) : Option Nat :=
  let s := (i.ctl.stored bank 0x13 0x100).toNat
  let a := BitVec.ofNat 8 (i.ctl.stored bank 0x13 0x108).toNat
  let b := BitVec.ofNat 8 (i.ctl.stored bank 0x13 0x10C).toNat
  match off with
  | 0x104 => some (if bits s 7 0 ≤ 191 ∧ 1 ≤ bits s 10 8 ∧ bits s 10 8 ≤ 4 then (coef (bits s 10 8) (bits s 7 0)).toNat else 0)
  | 0x110 => some ((gfMul a b).toNat + 2 ^ 8 * (if a = 0 then 0 else (gfInv a).toNat))
  | 0x114 => some (cdiv (i.shareBytes 1) 1024)
  | 0x118 => some i.oweHomes.length
  | 0x11C => some i.cod.plans.length
  | _ => none

/-- Chunks of a context with backlog records (R105, R376). -/
def Inst.laggingChunks (x : Nat) (i : Inst) : List ChunkId :=
  ((i.cod.backlog.map (fun r => r.chunk)).filter (fun c => decide (c.ctx = x))).eraseDups

/-- The ledger depth D of the committed image (R376). -/
def Inst.depthOf (x : Nat) (i : Inst) : Nat := match i.image x with | some m => m.head.depth | none => 0

/-- JCS_DELTA_STATUS (R376). -/
def Inst.statusDelta (i : Inst) : Nat :=
  flagsOf [(0, decide (0 < i.spilledCount)), (1, i.opt.waits.any (fun w => decide (w.2.1 = 4))), (2, decide (8192 ≤ i.cod.opens.length)),
    (3, i.ctxs.any (fun c => c.2.memb.rollback))]

/-- Registers of the DELTA page (R376). -/
def Inst.readDelta (bank off : Nat) (i : Inst) : Option Nat :=
  let x := i.view_ bank 0x14 0x100
  let ls := (i.laggingChunks x).map i.lagOf
  match off with
  | 0x104 => some (i.cod.backlog.length % 2 ^ 24)
  | 0x108 => some (i.spilledCount % 2 ^ 24)
  | 0x10C => some (ls.foldl max 0 % 2 ^ 16 + 2 ^ 16 * min (ls.filter (fun n => decide (n = i.depthOf x))).length 0xFFFF)
  | 0x110 => some ls.length
  | 0x114 => some (i.depthOf x)
  | 0x118 => some i.cod.opens.length
  | _ => none

/-- Chunks in state LOST_UNREPAIRED here: those whose stored record says so, and the lost copies of a stand-in (R142, R377). -/
def Inst.lostChunks (i : Inst) : Nat :=
  (i.mem.valid.filter (fun s => (recOf (i.mem.stack.readN (recLine s * 64 + recByte s) 16)).lost)).length +
    (i.flt.copies.filter (fun c => c.info.lost)).length

/-- The four context masks of the FAULT page (R377). -/
def Inst.degradedMask (i : Inst) : Nat := i.ctxMask (fun _ c => !c.memb.lost.isEmpty)
def Inst.servingMask (i : Inst) : Nat := i.ctxMask (fun x _ => i.flt.served.any (fun s => decide (s.1 = x)))
def Inst.fencedMask (i : Inst) : Nat := i.ctxMask (fun _ c => c.memb.fenced)
def Inst.haltedMask (i : Inst) : Nat := i.ctxMask (fun _ c => !c.run.halted.isEmpty)

/-- JCS_FAULT_STATUS (R377). -/
def Inst.statusFault (i : Inst) : Nat :=
  let bad := i.pw.state == .faulted
  flagsOf [(0, bad), (1, decide (i.degradedMask ≠ 0)), (2, decide (i.servingMask ≠ 0)), (3, decide (i.fencedMask ≠ 0)),
    (4, decide (i.haltedMask ≠ 0)), (5, decide (i.lostChunks ≠ 0))] + 2 ^ 8 * (if bad then i.pw.selfCause else 0)

/-- Registers of the FAULT page (R377). -/
def Inst.readFault (off : Nat) (i : Inst) : Option Nat :=
  match off with
  | 0x100 => some (i.degradedMask % 2 ^ 32)
  | 0x104 => some (i.degradedMask / 2 ^ 32)
  | 0x108 => some (i.servingMask % 2 ^ 32)
  | 0x10C => some (i.servingMask / 2 ^ 32)
  | 0x110 => some (i.fencedMask % 2 ^ 32)
  | 0x114 => some (i.fencedMask / 2 ^ 32)
  | 0x118 => some (i.haltedMask % 2 ^ 32)
  | 0x11C => some (i.haltedMask / 2 ^ 32)
  | 0x128 => some i.lostChunks
  | 0x12C => some ((i.flt.jobs.filter (fun j => j.isDecode && !j.queued)).length +
      2 ^ 16 * (i.flt.jobs.filter (fun j => j.isDecode && j.queued)).length)
  | 0x130 => some i.flt.served.length
  | 0x140 => some i.flt.recCount
  | _ => none

/-- Whether evacuation is in force for some context (R161). -/
def Inst.evacuating (i : Inst) : Bool := i.pw.evacuate || i.ctxs.any (fun c => c.2.run.evacuate)

/-- Contexts with an open transition (R158). -/
def Inst.openMask (i : Inst) : Nat := i.ctxMask (fun x _ => i.transitionOpen x)

/-- The contexts with TRANSITION_DONE (R157). -/
def Inst.doneMask (i : Inst) : Nat := (i.memb.done.map (fun x => 2 ^ x)).sum

/-- JCS_MEMB_STATUS (R379). -/
def Inst.statusMemb (i : Inst) : Nat :=
  i.memb.warn % 8 + flagsOf [(3, i.memb.reserve), (4, i.evacuating), (5, decide (i.openMask ≠ 0)), (6, !i.memb.done.isEmpty),
    (7, i.memb.moving.any (fun m => !m.faulted && !m.cutSent))]

/-- Registers of the MEMB page (R379). -/
def Inst.readMemb (bank off : Nat) (i : Inst) : Option Nat :=
  let x := i.view_ bank 0x16 0x134
  match off with
  | 0x118 => some i.memb.eccMeasure
  | 0x11C => some (i.memb.linkMeasure % 2 ^ 16)
  | 0x120 => some i.poolFree
  | 0x124 => some (i.doneMask % 2 ^ 32)
  | 0x128 => some (i.doneMask / 2 ^ 32)
  | 0x12C => some (i.openMask % 2 ^ 32)
  | 0x130 => some (i.openMask / 2 ^ 32)
  | 0x138 => some (i.memb.moving.filter (fun m => decide (m.ctx = x))).length
  | 0x13C => some (i.memb.incoming.filter (fun p => decide (p.1 = x))).length
  | 0x140 => some (i.cod.building.filter (fun b => decide (b.ctx = x))).length
  | 0x144 => some (i.memb.pushes.filter (fun p => decide (p.chunk.ctx = x))).length
  | _ => none

/-- JCS_FABRIC_STATUS (R380). -/
def Inst.statusFabric (i : Inst) : Nat :=
  flagsOf [(0, i.fab.chans.any (fun c => c.parked)), (1, i.fab.chans.any (fun c => c.offWait)), (2, decide (32 ≤ i.fab.joins.length)),
    (3, i.fab.outq.any (fun o => !i.fab.cplRoom o.share)), (4, decide (64 ≤ i.fab.frontEnd.length))]

/-- Registers of the FABRIC page (R380). -/
def Inst.readFabric (off : Nat) (i : Inst) : Option Nat :=
  match off with
  | 0x108 => some i.fab.cpl.length
  | 0x120 => some i.livePeers.length
  | 0x124 => some (i.fab.chans.filter (fun c => c.parked)).length
  | 0x128 => some i.fab.joins.length
  | 0x12C => some i.fab.frontEnd.length
  | o => if 0x10C ≤ o ∧ o ≤ 0x11C then some (i.fab.cplUsed ((o - 0x10C) / 4)) else none

/-- The widest range of the committed maps, in bytes of binary32 (R381). -/
def Inst.widest (i : Inst) : Nat := (i.ctxs.map (fun c => match i.image c.1 with | some m => 4 * m.width | none => 0)).foldl max 0

/-- JCS_LEDGER_STATUS (R381). -/
def Inst.statusLedger (i : Inst) : Nat :=
  let w := i.widest
  flagsOf [(0, decide (0 < w) && (firstFit i.ledgerPart i.ledgerSpans (256 + (w + 255) / 256 * 256)).isNone),
    (1, decide (0 < w) && (firstFit i.clipPart i.clipSpans (64 + (w + 63) / 64 * 64)).isNone),
    (2, (firstFit i.backlogPart i.backlogSpans (256 * 17)).isNone), (3, !i.cod.unledgered.isEmpty)]

/-- MiB that spans fill, a part counting whole (R381). -/
def mibOf (l : List (Nat × Nat)) : Nat := cdiv (l.map Prod.snd).sum (2 ^ 20)

/-- Registers of the LEDGER page (R381). -/
def Inst.readLedger (bank off : Nat) (i : Inst) : Option Nat :=
  let x := i.view_ bank 0x18 0x118
  match off with
  | 0x104 => some i.ledgerBase
  | 0x108 => some (mibOf i.ledgerSpans)
  | 0x10C => some (mibOf i.backlogSpans)
  | 0x110 => some (mibOf i.clipSpans)
  | 0x114 => some (i.cod.ledger.length % 2 ^ 24)
  | 0x124 => some (i.cod.unledgered.filter (fun u => decide (u.1 = x))).length
  | 0x128 => some ((i.cod.ledger.filter (fun h => decide (h.ctx = x))).length % 2 ^ 24)
  | _ => none

/-- The 64-bit values whose LO register latches its HI register (R344, R360). -/
def Inst.pair (bank x page off : Nat) (i : Inst) : Option Nat :=
  match page, off with
  | 0x12, 0x104 => some ((i.ctx x).run.step % 2 ^ 48)
  | 0x12, 0x10C => some (match i.image x with | some m => m.head.baseStep % 2 ^ 48 | none => 0)
  | 0x12, 0x170 => some (match i.activeSet x with | some a => a.1 % 2 ^ 48 | none => 0)
  | 0x18, 0x11C =>
    let m := (i.ctx (i.view_ bank 0x18 0x118)).memb
    some ((m.floor.getD 0) % 2 ^ 48 + 2 ^ 63 * b2n m.ledgerEmpty)
  | 0x21, 0x128 =>
    some (match i.cold.images.find? (fun c => c.ctx = i.view_ bank 0x21 0x11C) with | some c => c.step % 2 ^ 48 | none => 0)
  | _, _ => none

end Sys2Proof.Machine
end

