-- ==== Sys2Proof/Machine/RegServ.lean ====
section
/-! DEFINITION. What the OPT, ARRAY, EMIT, ECC, SCRUB, POOL, MBOX, TELEM, COLD and LOAD pages read (R386 to R402), and a read of any
register of an instance, with what the read latches or advances (R344, R360). -/

namespace Sys2Proof.Machine

/-- Whether a layer of a context still waits for its program, or for its parameter block (R173, R182, R387). -/
def Inst.layerWaits (kind : Nat) (ready : LayerRec → Nat → Bool) (i : Inst) : Bool :=
  i.opt.waits.any (fun w => decide (w.2.1 = kind) &&
    (match (i.image w.1).bind (fun m => m.layer w.2.2) with | some l => !ready l w.1 | none => false))

/-- JCS_OPT_STATUS (R387). -/
def Inst.statusOpt (i : Inst) : Nat :=
  flagsOf [(0, i.ctxs.any (fun c => !c.2.run.normLate.isEmpty)),
    (1, i.layerWaits 0 (fun l _ => (i.program l.program).isSome)),
    (2, i.layerWaits 1 (fun l x => (i.paramBlock x l.paramBlock).isSome)), (3, i.boot.programBad)]

/-- Registers of the OPT page (R386). -/
def Inst.readOpt (off : Nat) (i : Inst) : Option Nat :=
  match off with
  | 0x104 => some i.opt.flights.length
  | 0x120 => some i.boot.programs.length
  | _ => none

/-- The class of work on the array or waiting for it, 4 for none (R201). -/
def Inst.arrClass (w : ArrWork) (i : Inst) : Nat := ((i.arrWork.find? (fun p => p.1 == w)).map Prod.snd).getD 4

/-- JCS_ARRAY_STATUS (R388). -/
def Inst.statusArray (i : Inst) : Nat :=
  flagsOf [(0, i.arr.run.isSome), (1, i.arr.parked.isSome), (2, i.arr.run.any (fun w => i.arrClass w == 1)), (3, i.arr.run == some .selfTest)]

/-- Jobs that wait in a class (R388). -/
def Inst.arrWaiting (n : Nat) (i : Inst) : Nat := min (i.arr.queue.filter (fun w => i.arrClass w == n)).length 255

/-- Registers of the ARRAY page (R388). -/
def Inst.readArray (bank off : Nat) (i : Inst) : Option Nat :=
  match off with
  | 0x114 => some (match i.arr.jobs.find bank with | some j => j.state + 2 ^ 8 * j.reason | none => 0)
  | 0x118 => some (i.arrWaiting 1 + 2 ^ 8 * i.arrWaiting 2 + 2 ^ 16 * i.arrWaiting 3 + 2 ^ 24 * i.arrWaiting 4)
  | 0x11C => some i.arr.lastTest
  | _ => none

/-- JCS_EMIT_STATUS (R390): the share takes no further record when it has no room for one of the widest range in use. -/
def Inst.statusEmit (i : Inst) : Nat :=
  flagsOf [(0, i.emit.stopped), (1, !i.shareRoom 2 (64 + i.widest)), (2, decide (64 ≤ i.emit.reemit.length))]

/-- Registers of the EMIT page (R228, R390). -/
def Inst.readEmit (bank off : Nat) (i : Inst) : Option Nat :=
  let r := fun o => (i.ctl.stored bank 0x1B o).toNat
  match off with
  | 0x100 => some i.emit.reemit.length
  | 0x104 => some (i.emit.waiting.length % 2 ^ 16)
  | 0x108 => some (cdiv (i.shareBytes 2) 1024)
  | 0x148 => some (genMix (r 0x120 + 2 ^ 32 * r 0x124 + 2 ^ 64 * r 0x128 + 2 ^ 96 * r 0x12C) (r 0x130 + 2 ^ 32 * r 0x134) (r 0x138)
      (r 0x13C + 2 ^ 32 * r 0x140) (r 0x144)).toNat
  | _ => none

/-- TEST_MODE: CTL bit 0, which the production lock holds at 0 (R253, R391). -/
def Inst.testMode (i : Inst) : Bool := (i.reg 0x1C 0x018 0).testBit 0 && !i.view.testLock

/-- Repairs running (R243 to R245, R391). -/
def Inst.repairsRunning (i : Inst) : Nat :=
  (i.flt.jobs.filter (fun j => match j.kind with
    | .chunkRepair _ _ _ => true | .rowRepair _ _ check => !check | .shadowRepair _ _ => true | _ => false)).length

/-- JCS_ECC_STATUS (R391). -/
def Inst.statusEcc (i : Inst) : Nat :=
  flagsOf [(0, i.testMode), (1, decide (i.repairsRunning ≠ 0)), (2, !i.cod.damaged.isEmpty),
    (3, decide (i.reg 0x1C 0x100 0x40 ≤ 2 * i.ueWindow))]

/-- Slot, line and bit 31 in one word (R391). -/
def lineWord (slot line : Nat) (top : Bool) : Nat := slot % 2 ^ 25 + 2 ^ 25 * (line % 64) + 2 ^ 31 * b2n top

/-- Registers of the ECC page (R391). -/
def Inst.readEcc (off : Nat) (i : Inst) : Option Nat :=
  match off with
  | 0x018 => some (b2n i.testMode)
  | 0x104 => some (i.ueWindow % 2 ^ 16)
  | 0x108 => some i.ecc.corr.length
  | 0x114 => some (match i.ecc.lastUe with | some u => lineWord u.1 u.2 true | none => 0)
  | 0x118 => some i.ecc.lastInfo
  | 0x11C => some i.repairsRunning
  | 0x120 => some i.cod.damaged.length
  | _ => none

/-- JCS_SCRUB_STATUS (R392). -/
def Inst.statusScrub (i : Inst) : Nat :=
  flagsOf [(0, i.scrub.running), (1, i.scrub.late), (2, i.scrub.forced), (3, !i.scrub.began)]

/-- Registers of the SCRUB page (R392). -/
def Inst.readScrub (off : Nat) (i : Inst) : Option Nat :=
  let s := i.scrub
  match off with
  | 0x10C => some s.lastMs
  | 0x110 => some (if s.running then (i.view.time - s.startT) / aonHz % 2 ^ 17 else 0)
  | 0x114 => some (if s.running then s.phase else 0)
  | 0x118 => some (if s.running then s.slot else 0)
  | 0x11C => some (s.debt % 2 ^ 17)
  | _ => none

/-- The sum of the minima (R316). -/
def Inst.minSum (i : Inst) : Nat := (i.ctxs.map (fun c => c.2.run.poolMin)).sum

/-- JCS_POOL_STATUS (R393). -/
def Inst.statusPool (i : Inst) : Nat := flagsOf [(0, i.pool.rebuilding), (1, decide (i.freeBuffers = 0))]

/-- Buffers an initiator holds (R320). -/
def Inst.initHeld (bank : Nat) (i : Inst) : Nat := (i.pool.owned.filter (fun b => b.2.owners.contains (.init bank))).length

/-- Registers of the POOL page (R393). -/
def Inst.readPool (bank x off : Nat) (i : Inst) : Option Nat :=
  match off with
  | 0x100 => some (i.ctx x).run.poolMin
  | 0x104 => some (i.ctxHeld x)
  | 0x108 => some i.minSum
  | 0x10C => some (i.pool.free.headD 0x3FF)
  | 0x110 => some i.freeBuffers
  | 0x118 => some (i.pool.result.getD 0 bank)
  | 0x150 => some (i.initHeld bank)
  | _ => none

/-- Messages in a mailbox: 0 to 7 inbound, 8 to 15 outbound (R313). -/
def Inst.box (n : Nat) (i : Inst) : List Msg := i.mbox.boxes.getD [] n

/-- JCS_MBOX_STATUS (R395). -/
def Inst.statusMbox (i : Inst) : Nat :=
  flagsOf ((List.range 8).map (fun m => (m, !(i.box (8 + m)).isEmpty)) ++ (List.range 8).map (fun m => (8 + m, !(i.box m).isEmpty)))

/-- Registers of the MBOX page (R395). -/
def Inst.readMbox (off : Nat) (i : Inst) : Option Nat :=
  match off with
  | 0x150 => some ((List.range 8).map (fun m => 2 ^ (4 * m) * (i.box m).length)).sum
  | 0x154 => some ((List.range 8).map (fun m => 2 ^ (4 * m) * (i.box (8 + m)).length)).sum
  | _ => none

/-- Free bytes of the per-step ring (R347). -/
def Inst.stepRoom (i : Inst) : Nat :=
  let size := i.telem.stepSize * 4096
  size - 1 - (i.telem.stepHead + size - i.telem.stepTail) % size

/-- JCS_TELEM_STATUS (R397). -/
def Inst.statusTelem (i : Inst) : Nat :=
  flagsOf [(0, i.arr.sampling), (1, decide (i.telem.stepSize = 0)), (2, decide (i.telem.stepSize ≠ 0) && decide (i.stepRoom < 4096))]

/-- The value a counter read names: live, or of the reader's freeze bank (R344, R346). -/
def Inst.counterOf (bank : Nat) (i : Inst) : Nat :=
  let s := (i.ctl.stored bank 0x20 0x100).toNat
  let k := bits s 7 0
  if !counterListed k then 0
  else if s.testBit 8 then ((i.telem.cnt.freeze.find bank).getD []).getD 0 k
  else i.telem.cnt.live.getD 0 k

/-- Registers of the TELEM page (R397). -/
def Inst.readTelem (bank off : Nat) (i : Inst) : Option Nat :=
  match off with
  | 0x104 => some (i.counterOf bank % 2 ^ 32)
  | 0x128 => some i.telem.stepSize
  | 0x12C => some i.telem.stepTail
  | 0x130 => some i.telem.stepHead
  | 0x144 => some i.arr.marginHbm
  | 0x148 => some (match i.arr.marginArr with | some n => n % 16 + 2 ^ 8 | none => 0)
  | 0x14C => some i.arr.marginEcc
  | _ => none

/-- JCS_COLD_STATUS (R400). -/
def Inst.statusCold (i : Inst) : Nat :=
  let loads := i.cmdq.running.any (fun r => decide (r.descr.op = 0x03) && r.descr.isCold)
  flagsOf [(0, i.cold.full), (1, !i.cold.usable), (2, i.cmdq.running.any (fun r => decide (r.descr.op = 0x06))), (3, loads),
    (4, i.cold.nvme.any (fun c => c.owner.isNone))]

/-- Registers of the COLD page (R400). -/
def Inst.readCold (bank off : Nat) (i : Inst) : Option Nat :=
  let x := i.view_ bank 0x21 0x11C
  let n := fun s => (i.cold.inState s).length
  let img := i.cold.images.find? (fun c => c.ctx = x)
  let writing := i.cmdq.running.any (fun r => decide (r.descr.op = 0x06) && decide (r.descr.ctx = x))
  match off with
  | 0x10C => some (i.cold.zones.length % 2 ^ 16 + 2 ^ 16 * n 0)
  | 0x110 => some (n 1 + 2 ^ 16 * n 3)
  | 0x114 => some (n 2)
  | 0x118 => some (leNat ((List.range 4).map (fun k => match i.view.coldPriv[k]? with | some c => BitVec.ofNat 8 (c % 64 + 128) | none => 0)))
  | 0x120 => some (match img, writing with | none, false => 0 | some _, false => 1 | some _, true => 2 | none, true => 3)
  | 0x124 => some (match img with | some c => c.seq % 2 ^ 32 | none => 0)
  | 0x130 => some (match img with | some c => c.chunks | none => 0)
  | 0x134 => some (i.cold.lastCode + 2 ^ 8 * i.cold.lastKind)
  | _ => none

/-- Registers of the LOAD page (R402). -/
def Inst.readLoad (off : Nat) (i : Inst) : Option Nat :=
  match off with
  | 0x100 => some i.cmdq.running.length
  | 0x104 => some i.readsOut
  | 0x108 => some i.load.written
  | 0x10C => some ((i.cmdq.running.flatMap (fun r => r.chunks)).filter (fun c => c.phase == .written)).length
  | 0x110 => some (i.load.lastErr % 2 ^ 32)
  | 0x114 => some (i.load.lastErr / 2 ^ 32)
  | 0x118 => some i.load.lastKind
  | _ => none

/-- STATUS of an instance page (R297), `x` the initiator's context. -/
def Inst.status (bank x page : Nat) (i : Inst) : Nat :=
  match page with
  | 0x10 => i.statusInst
  | 0x11 => i.statusMap bank
  | 0x12 => i.statusCtx x
  | 0x13 => flagsOf [(0, !i.oweHomes.isEmpty), (1, decide (256 ≤ i.cod.plans.length))]
  | 0x14 => i.statusDelta
  | 0x15 => i.statusFault
  | 0x16 => i.statusMemb
  | 0x17 => i.statusFabric
  | 0x18 => i.statusLedger
  | 0x19 => i.statusOpt
  | 0x1A => i.statusArray
  | 0x1B => i.statusEmit
  | 0x1C => i.statusEcc
  | 0x1D => i.statusScrub
  | 0x1E => i.statusPool
  | 0x1F => i.statusMbox
  | 0x20 => i.statusTelem
  | 0x21 => i.statusCold
  | 0x22 => flagsOf [(0, i.cmdq.running.any (fun r => decide (r.descr.op = 0x03))), (1, decide (256 ≤ i.readsOut))]
  | _ => 0

/-- The STATUS bits that drive JCS_INT_FAULT, JCS_INT_EVENT and JCS_INT_MBOX (R300, R359, R384). -/
def faultMask : Nat → Nat
  | 0x10 => 0x0A | 0x15 => 0x3B | 0x16 => 0x08 | 0x19 => 0x08 | 0x1C => 0x08 | _ => 0
def eventMask : Nat → Nat
  | 0x10 => 0xC4 | 0x14 => 0x02 | 0x15 => 0x04 | 0x16 => 0x47 | 0x17 => 0x01 | 0x18 => 0x01 | 0x19 => 0x07 | 0x1B => 0x04 | 0x1C => 0x04
  | 0x1D => 0x06 | 0x20 => 0x04 | 0x21 => 0x03 | _ => 0
def mboxMask : Nat → Nat
  | 0x1F => 0xFF | _ => 0

/-- INT_STATUS of an instance page: the STATUS bits that name a line (R359). -/
def Inst.intStatus (bank x page : Nat) (i : Inst) : Nat :=
  let m := faultMask page ||| eventMask page ||| mboxMask page
  if m = 0 then 0 else i.status bank x page &&& m

/-- INT_PENDING of an instance page under a mask of lines (R297). -/
def Inst.pendingOf (page mask : Nat) (i : Inst) : Nat :=
  (if mask = 0 then 0 else i.status 0 0 page &&& mask) &&& i.reg page 0x010 0

/-- The three interrupt lines of the instance (R300): in OFF only the FAULT line of the INST and FAULT pages remains. -/
def Inst.intFault (i : Inst) : Bool :=
  let ps := if i.pw.state = .off then [0x10, 0x15] else [0x10, 0x15, 0x16, 0x19, 0x1C]
  ps.any (fun p => decide (i.pendingOf p (faultMask p) ≠ 0))
def Inst.intEvent (i : Inst) : Bool :=
  i.pw.state != .off && ([0x10, 0x14, 0x15, 0x16, 0x17, 0x18, 0x19, 0x1B, 0x1C, 0x1D, 0x20, 0x21] : List Nat).any
    (fun p => decide (i.pendingOf p (eventMask p) ≠ 0))
def Inst.intMbox (i : Inst) : Bool := i.pw.state != .off && decide (i.pendingOf 0x1F (mboxMask 0x1F) ≠ 0)

/-- The computed registers of a page. -/
def Inst.readPage (bank x page off : Nat) (i : Inst) : Option Nat :=
  match page with
  | 0x10 => i.readInst bank off
  | 0x11 => i.readMap bank off
  | 0x12 => i.readCtx x off
  | 0x13 => i.readCodec bank off
  | 0x14 => i.readDelta bank off
  | 0x15 => i.readFault off
  | 0x16 => i.readMemb bank off
  | 0x17 => i.readFabric off
  | 0x18 => i.readLedger bank off
  | 0x19 => i.readOpt off
  | 0x1A => i.readArray bank off
  | 0x1B => i.readEmit bank off
  | 0x1C => i.readEcc off
  | 0x1D => i.readScrub off
  | 0x1E => i.readPool bank x off
  | 0x1F => i.readMbox off
  | 0x20 => i.readTelem bank off
  | 0x21 => i.readCold bank off
  | 0x22 => i.readLoad off
  | _ => none

/-- The header registers of a page (R297). -/
def CtlSt.readHeader (bank page off : Nat) (status int : Nat) (c : CtlSt) : Option Nat :=
  match off with
  | 0x000 => some (page * 2 ^ 16 + 1)
  | 0x004 => some 0
  | 0x008 => some status
  | 0x00C => some int
  | 0x010 => some (c.stored bank page 0x010).toNat
  | 0x014 => some (int &&& (c.stored bank page 0x010).toNat)
  | 0x01C => some (b2n (c.locks.contains page))
  | 0x020 => some 0
  | 0x024 => some 0
  | 0x028 => some (c.guard bank page).target
  | _ => none

/-- A register read whose word also advances the reader's index: the select register, the lowest bit of its index and its length,
and where the latched words begin (R386, R390, R397). -/
def advancing : Nat → Nat → Option (Nat × Nat × Nat)
  | 0x19, 0x144 => some (0x140, 16, 32)
  | 0x1B, 0x110 => some (0x10C, 0, 16)
  | 0x20, 0x138 => some (0x134, 0, 32)
  | _, _ => none

/-- Latched words of a page, kept beside its registers: word `n` of an initiator's copy. -/
def copyKey (off n : Nat) : Nat := 0x1000 * 0x1000 * 0x100 + off * 0x100 + n
def CtlSt.copyWord (bank page off n : Nat) (c : CtlSt) : Word := (c.regs.find (bankKey bank page (copyKey off n))).getD 0
def CtlSt.copyAll (bank page off : Nat) : Nat → List Word → CtlSt → CtlSt
  | _, [], c => c
  | n, w :: t, c => ({ c with regs := c.regs.put (bankKey bank page (copyKey off n)) w } : CtlSt).copyAll bank page off (n + 1) t

/-- The value of a register of an instance (R359 to R402). -/
def Inst.readReg (bank x page off : Nat) (i : Inst) : Word :=
  match i.ctl.readHeader bank page off (i.status bank x page) (i.intStatus bank x page) with
  | some v => w32 v
  | none =>
    match i.pair bank x page off with
    | some v => lo32 v
    | none =>
      match advancing page off with
      | some a => i.ctl.copyWord bank page off (bits (i.ctl.stored bank page a.1).toNat (a.2.1 + 4) a.2.1 % a.2.2)
      | none =>
        match i.readPage bank x page off with
        | some v => w32 v
        | none => i.ctl.stored bank page off

/-- The counters as a read of one finds them: the throttled cycles are brought up to date where they are the one read (R51, R344). -/
def Inst.counted (bank page off : Nat) (i : Inst) : Inst :=
  let s := (i.ctl.stored bank 0x20 0x100).toNat
  if page = 0x20 ∧ off = 0x104 ∧ bits s 8 0 = Cnt.throttleCycles then i.noteThrottle else i

/-- What a read does: the HI copy a LO read latches, the snapshot of a counter, the index a data read advances (R344, R360). -/
def Inst.readEffect (bank x page off : Nat) (i : Inst) : Inst :=
  match i.pair bank x page off with
  | some v => { i with ctl := i.ctl.latch bank page (off + 4) (hi32 v) }
  | none =>
    match advancing page off with
    | some a =>
      let s := (i.ctl.stored bank page a.1).toNat
      let n := bits s (a.2.1 + 4) a.2.1 % a.2.2
      { i with ctl := i.ctl.store bank page a.1 (w32 (s - 2 ^ a.2.1 * bits s (a.2.1 + 4) a.2.1 + 2 ^ a.2.1 * ((n + 1) % a.2.2))) }
    | none =>
      if page = 0x20 ∧ off = 0x104 then { i with ctl := i.ctl.latch bank page 0x108 (w32 (i.counterOf bank / 2 ^ 32)) } else i

end Sys2Proof.Machine
end

