-- ==== Sys2Proof/Machine/RegFx.lean ====
section
/-! DEFINITION. What writes of instance registers do: latches, buffers, mailboxes, array jobs, counters, the per-step ring and the
settings with a rule of their own (R165, R182, R183, R216, R302, R313 to R320, R344 to R347, R360 to R400). -/

namespace Sys2Proof.Machine

/-- The 32-bit words of a byte string. -/
def wordsLe (n : Nat) (b : Bytes) : List Word := (List.range n).map (fun k => w32 (field (4 * k) 4 b))

/-- A change of the register file. -/
def Inst.ctlMap (f : CtlSt → CtlSt) (i : Inst) : Inst := { i with ctl := f i.ctl }

/-- WRITE_IGNORED (R383). -/
def Inst.ignored (b page off : Nat) (w : Word) (ctx : Option Nat) (i : Inst) : Inst :=
  i.eventBy 0xFF04 page ctx b [(20, 2, off), (24, 4, w.toNat)]

/-- A write of RING_MTAIL or RING_HTAIL (R302). -/
def Inst.setTail (isM : Bool) (b : Nat) (w : Word) (i : Inst) : Inst :=
  let v := w.toNat % 1024
  let r := i.ctl.logs.ring.setTail 1024 isM v
  let j := i.ctlMap (fun c => { c with logs := { c.logs with ring := r.1 } })
  if r.2 then j else j.eventBy 0xFF03 0x10 none b [(20, 4, v)]

/-- POWER_CTL (R324): a field that takes a value it does not allow keeps the one it had. -/
def Inst.powerCtl (w : Word) (i : Inst) : Inst :=
  let v := w.toNat
  let old := i.reg 0x10 0x100 0x02100032
  let d := if bits v 25 24 = 3 then bits old 25 24 else bits v 25 24
  let z := if bits v 23 16 = 0 then bits old 23 16 else bits v 23 16
  let n := if bits v 15 0 = 0 then bits old 15 0 else bits v 15 0
  i.ctlMap (CtlSt.store 0 0x10 0x100 (w32 (2 ^ 24 * d + 2 ^ 16 * z + n)))

/-- CPL_BASE_HI: the new completion base takes effect (R311, R367). -/
def Inst.cplBase (b : Nat) (w : Word) (i : Inst) : Inst :=
  let lo := (i.ctl.stored b 0x10 0x130).toNat
  let j := i.ctlMap (CtlSt.store b 0x10 0x134 w)
  { j with cmdq := { j.cmdq with base := j.cmdq.base.put b (w.toNat * 2 ^ 32 + lo) } }

/-- The latches of the INST page (R360, R369). -/
def Inst.ringIndex (b : Nat) (w : Word) (i : Inst) : Inst :=
  let e := i.ctl.logs.ring.entries.getD (List.replicate 32 0) (w.toNat % 1024)
  i.ctlMap (fun c => (c.store b 0x10 0x14C w).latchAll b 0x10 0x150 (wordsLe 8 e))
def Inst.ologIndex (b : Nat) (w : Word) (i : Inst) : Inst :=
  let e := i.ctl.logs.olog.getD (List.replicate 16 0) (w.toNat % 256)
  i.ctlMap (fun c => (c.store b 0x10 0x184 w).latchAll b 0x10 0x188 (wordsLe 4 e))

/-- COLD_PRIV (R289): the die has four; the view carries the change back to the die. -/
def Inst.setColdPriv (b x : Nat) (w : Word) (i : Inst) : Inst :=
  let l := i.view.coldPriv
  if w.toNat % 2 = 0 then { i with view := { i.view with coldPriv := l.filter (· ≠ x) } }
  else if l.contains x then i
  else if 4 ≤ l.length then i.eventBy 0x1203 0x12 (some x) b []
  else { i with view := { i.view with coldPriv := insertNat x l } }

/-- A write of the pending user scalars or of their effective step (R183, R372). -/
def Inst.setScalar (x n : Nat) (w : Word) (i : Inst) : Inst :=
  i.modUser x (fun u => { u with pending := setAt n w u.pending })
def Inst.setScalarStep (x : Nat) (high : Bool) (w : Word) (i : Inst) : Inst :=
  i.modUser x (fun u => { u with pendStep := if high then u.pendStep % 2 ^ 32 + 2 ^ 32 * (w.toNat % 2 ^ 16)
    else u.pendStep / 2 ^ 32 * 2 ^ 32 + w.toNat })

/-- Whether a set of user scalars whose effective step is n has taken effect: an update of that step or a later one has started (R183). -/
def Inst.scalarsUsed (x n : Nat) (i : Inst) : Bool :=
  match (i.ctx x).run.started with
  | some s => decide (n ≤ s)
  | none => false

/-- USCALAR_ARM (R183, R374): a set that has not taken effect is replaced; the layers that waited go on. -/
def Inst.armScalars (b x : Nat) (i : Inst) : Inst :=
  let u := (i.ctx x).user
  if i.scalarsUsed x u.pendStep then
    (i.modUser x (fun u => { u with late := true })).eventBy 0x1202 0x12 (some x) b [(24, 4, u.pendStep % 2 ^ 32)]
  else
    let j := i.modUser x (fun u => { u with
      armed := u.armed.filter (fun a => i.scalarsUsed x a.1) ++ [(u.pendStep, u.pending)], late := false })
    let k : Inst := { j with opt := { j.opt with waits := j.opt.waits.filter (fun w => w ≠ (x, 2, 0)) } }
    (k.eventBy 0x1201 0x12 (some x) b [(24, 4, u.pendStep % 2 ^ 32)]).pump

/-- PLAN_FLUSH (R375): a plan in use goes when its decode ends. -/
def Inst.planFlush (i : Inst) : Inst :=
  { i with cod := { i.cod with plans := (i.cod.plans.filter i.planUsed).map (fun p => { p with doomed := true }) } }

/-- The latches of the FAULT page (R360, R377). -/
def Inst.lostView (b : Nat) (w : Word) (i : Inst) : Inst :=
  let l := sortLost (i.ctx (bits w.toNat 5 0)).memb.lost
  let v := match l[bits w.toNat 15 8]? with
    | some e => e.home.node % 2 ^ 16 + 2 ^ 16 * (e.home.idx % 2 ^ 8) + 2 ^ 24 * (e.cause % 2 ^ 8)
    | none => 0
  i.ctlMap (fun c => (c.store b 0x15 0x120 w).latch b 0x15 0x124 (w32 v))
def Inst.recIndex (b : Nat) (w : Word) (i : Inst) : Inst :=
  let r := i.flt.records.getD (w.toNat % 16) (List.replicate 64 0)
  i.ctlMap (fun c => (c.store b 0x15 0x144 w).latchAll b 0x15 0x148 (wordsLe 16 r))

/-- The state of a channel (R380). -/
def Inst.chanState (h : Home) (i : Inst) : Nat :=
  let shared := i.ctxs.filter (fun c => match i.image c.1 with | some m => (m.peers i.self).contains h | none => false)
  let c := i.chan h
  if !shared.isEmpty && shared.all (fun x => isLost x.2.memb.lost h) then 4
  else if c.parked then 2
  else if c.offWait then 3
  else if shared.any (fun x => i.matched x.1 h) then 1
  else 0

/-- CHAN_SEL (R380): peers take the table's slots in ascending order. -/
def Inst.chanSel (b : Nat) (w : Word) (i : Inst) : Inst :=
  let ps := sortBy (fun (h : Home) => h.node * 256 + h.idx) i.livePeers
  let ws := match ps[w.toNat % 1024]? with
    | none => List.replicate 5 (0 : Word)
    | some h =>
      let c := i.chan h
      [w32 (h.node % 2 ^ 16 + 2 ^ 16 * (h.idx % 2 ^ 8) + 2 ^ 24 + 2 ^ 25 * i.fab.routes.getD 0 h.node + 2 ^ 27 * i.chanState h),
       w32 c.outSeq, w32 (i.fab.unanswered h), w32 (c.inNext.getD 0), w32 c.waiting.length]
  i.ctlMap (fun c => (c.store b 0x17 0x130 w).latchAll b 0x17 0x134 ws)

/-- A write of SIZES (R382): it moves the ledger region's base. -/
def Inst.setSizes (b : Nat) (w : Word) (i : Inst) : Inst :=
  let v := w.toNat &&& 0x1F1F1F
  let r := bits v 4 0
  let l := bits v 12 8
  let k := bits v 20 16
  if r < 1 ∨ 16 < r ∨ l < 1 ∨ k < 1 ∨ r < l + k then i.eventBy 0x1803 0x18 none b [(24, 4, w.toNat)]
  else if i.ctxs.any (fun c => decide (c.2.map.state ≠ 0) || decide (c.2.map.slot ≠ 0)) then i.eventBy 0x1802 0x18 none b [(24, 4, w.toNat)]
  else (i.ctlMap (CtlSt.store b 0x18 0x100 (w32 v))).judgeReserve

/-- NORM_SEL (R187, R386). -/
def Inst.normSel (b : Nat) (w : Word) (i : Inst) : Inst :=
  let l := (i.ctx (bits w.toNat 5 0)).run.norms.reverse
  let ws := match l[bits w.toNat 8 8]? with
    | some n => [lo32 n.1, w32 (n.1 / 2 ^ 32 % 2 ^ 16 + 2 ^ 31), n.2.1, w32 (b2n n.2.2)]
    | none => [0, 0, 0, 0]
  i.ctlMap (fun c => (c.store b 0x19 0x108 w).latchAll b 0x19 0x10C ws)

/-- PROG_SEL: the 16-byte header of a program (R173, R386). -/
def Program.head (p : Program) : Bytes :=
  packed 16 [(0, 2, p.id), (2, 2, p.code.length), (4, 1, b2n p.scalars + 2 * b2n p.precond), (5, 1, p.classMask), (8, 8, p.crc)]
def Inst.progSel (b : Nat) (w : Word) (i : Inst) : Inst :=
  let h := match i.boot.programs[w.toNat % 32]? with | some p => p.head | none => List.replicate 16 0
  i.ctlMap (fun c => (c.store b 0x19 0x124 w).latchAll b 0x19 0x128 (wordsLe 4 h))

/-- PARAM_SEL: a whole parameter block, and what can be done to it (R182, R386). -/
def Inst.paramSel (b : Nat) (w : Word) (i : Inst) : Inst :=
  let x := bits w.toNat 5 0
  let n := bits w.toNat 12 8
  let blk := i.paramBlock x n
  let locked := i.opt.waits.contains (x, 3, n) && !(i.ctx x).run.paused
  i.ctlMap (fun c => ((c.store b 0x19 0x140 w).copyAll b 0x19 0x144 0 (blk.getD (List.replicate 32 0))).latch b 0x19 0x148
    (w32 (flagsOf [(0, blk.isSome), (1, locked)])))

/-- LAST_SEL of the EMIT page, CORR_SEL, LAST_INDEX (R390, R391, R397). -/
def Inst.lastSel (b : Nat) (w : Word) (i : Inst) : Inst :=
  i.ctlMap (fun c => (c.store b 0x1B 0x10C w).copyAll b 0x1B 0x110 0 (wordsLe 16 i.emit.last))
def Inst.corrSel (b : Nat) (w : Word) (i : Inst) : Inst :=
  let v := match i.ecc.corr[w.toNat % 64]? with | some e => lineWord e.1 e.2.1 e.2.2 | none => 0
  i.ctlMap (fun c => (c.store b 0x1C 0x10C w).latch b 0x1C 0x110 (w32 v))
def Inst.lastIndex (b : Nat) (w : Word) (i : Inst) : Inst :=
  i.ctlMap (fun c => (c.store b 0x20 0x134 w).copyAll b 0x20 0x138 0 (wordsLe 32 i.telem.lastHead))

/-- CTX_MIN (R316, R393). -/
def Inst.setCtxMin (b x : Nat) (w : Word) (i : Inst) : Inst :=
  let v := w.toNat % 64
  if 32 < v then i.ignored b 0x1E 0x100 w (some x)
  else if 192 < i.minSum - (i.ctx x).run.poolMin + v then i.eventBy 0x1E02 0x1E (some x) b [(20, 1, x), (21, 1, v)]
  else i.modRun x (fun r => { r with poolMin := v })

/-- How many buffers each share lends, the lowest share that has some to spare first (R47). -/
def Inst.lentOut (i : Inst) (s : Nat) : Nat :=
  let size := fun t => i.pool.active.getD t 0
  let excess := ((List.range 6).map (fun t => i.shareUsed t - size t)).sum
  let before := ((([0, 1, 2, 4, 5] : List Nat).filter (fun t => decide (t < s))).map (fun t => size t - i.shareUsed t)).sum
  if s = 3 then 0 else min (size s - i.shareUsed s) (excess - before)

/-- The share a buffer is lent from when a share needs one more (R47). -/
def Inst.lender (i : Inst) (s : Nat) : Nat :=
  if i.shareUsed s < i.pool.active.getD s 0 then s
  else (([0, 1, 2, 4, 5] : List Nat).find? (fun t => decide (i.shareUsed t + i.lentOut t < i.pool.active.getD t 0))).getD s

/-- ALLOC_REQ (R317, R320): one buffer of the command share, at most eight an initiator. -/
def Inst.allocReq (b : Nat) (i : Inst) : Inst :=
  let fail := ({ i with pool := { i.pool with result := i.pool.result.put b 0 } } : Inst).poolFail 5
  match i.pool.free with
  | [] => fail
  | n :: rest =>
    if !i.pool.threaded || i.pool.rebuilding || 8 ≤ i.initHeld b || i.freeBuffers = 0 || !i.shareRoom 5 65536 then fail
    else { i with pool := { i.pool with
             free := rest, result := i.pool.result.put b (2 ^ 31 + n),
             owned := i.pool.owned.put n { share := 5, lentFrom := i.lender 5, ctx := none, owners := [.init b], deferred := [] } } }

/-- Bytes of staging. -/
def MemSt.stagingBytes (a n : Nat) (m : MemSt) : Bytes := m.staging.readN a n

/-- The spans of staging an array job names (R216): descriptors, operands, scales and output. -/
def operandSpans (d : ArrayDesc) : List (Nat × Nat) :=
  (d.dataAddr, d.rows * arrayRowBytes d) :: (if d.scale = 0 then [] else [(d.scaleAddr, arrayScaleCount d)])
def secondSpan (d : ArrayDesc) (n : Nat) : List (Nat × Nat) := if d.second then [(d.secondAddr, 4 * n)] else []
def Inst.jobDesc (a : Nat) (i : Inst) : ArrayDesc := arrayDescOf (i.mem.stagingBytes a 24)
def Inst.jobSpans (j : ArrJob) (i : Inst) : List (Nat × Nat) :=
  let a := i.jobDesc j.a
  let b := i.jobDesc j.b
  [(j.a, 24), (j.b, 24), (j.outA, 4 * a.rows * b.cols)] ++ operandSpans a ++ operandSpans b ++ secondSpan a a.rows ++ secondSpan b b.cols

/-- Buffers a span touches (R320). -/
def spanBuffers (s : Nat × Nat) : List Nat := if s.2 = 0 then [] else (List.range ((s.1 + s.2 - 1) / 65536 + 1)).drop (s.1 / 65536)

/-- Whether a QUEUED or RUNNING job of an initiator names a buffer (R389). -/
def Inst.jobNames (b n : Nat) (i : Inst) : Bool :=
  match i.arr.jobs.find b with
  | some j => j.work != 0 && (i.jobSpans j).any (fun s => (spanBuffers s).contains n)
  | none => false

/-- One owner's bit cleared; the last one frees the buffer to the head of the list (R319). -/
def Pool.clearOwner (n : Nat) (o : BufOwner) (p : Pool) : Pool :=
  match p.owned.find n with
  | none => p
  | some e =>
    let l := e.owners.filter (· ≠ o)
    if l.isEmpty then { p with owned := p.owned.del n, free := n :: p.free }
    else { p with owned := p.owned.put n { e with owners := l, deferred := e.deferred.filter (· ≠ o) } }

/-- RELEASE (R319, R320, R389): a buffer that a job of the initiator names stays owned until the job ends. -/
def Inst.releaseBuffer (b : Nat) (w : Word) (i : Inst) : Inst :=
  let n := w.toNat % 512
  match i.pool.owned.find n with
  | some e =>
    if !e.owners.contains (.init b) then (i.count Cnt.poolBadRelease 1).eventBy 0x1E04 0x1E none b [(20, 2, n)]
    else if i.jobNames b n then
      { i with pool := { i.pool with owned := i.pool.owned.put n { e with deferred := e.deferred.filter (· ≠ .init b) ++ [.init b] } } }
    else { i with pool := i.pool.clearOwner n (.init b) }
  | none => (i.count Cnt.poolBadRelease 1).eventBy 0x1E04 0x1E none b [(20, 2, n)]

/-- The pending share sizes (R393). -/
def Inst.pendingSizes (i : Inst) : List Nat :=
  (List.range 6).map (fun s => (i.ctl.stored 0 0x1E (0x120 + 4 * s)).toNat)

/-- The sizes that fail a condition of R394, bit s for share s. -/
def sizesBad (l : List Nat) (minSum : Nat) : Nat :=
  let own := flagsOf (l.zipIdx.map (fun p => (p.2, decide (p.1 < (if p.2 = 3 then 64 else 16)))))
  let group := if l.getD 0 0 + l.getD 1 0 + l.getD 2 0 < minSum then 7 else 0
  if l.sum ≠ 512 then 0x3F else own ||| group

/-- SIZE_APPLY (R394). -/
def Inst.sizeApply (b : Nat) (i : Inst) : Inst :=
  let l := i.pendingSizes
  let bad := sizesBad l i.minSum
  let held := i.ctxs.any (fun c => decide (c.2.map.state ≠ 0)) || ([0, 1, 2, 3, 4] : List Nat).any (fun s => decide (i.shareUsed s ≠ 0))
  if bad ≠ 0 ∨ held = true then i.eventBy 0x1E03 0x1E none b [(24, 4, bad)]
  else { i with pool := { i.pool with active := l } }

/-- SHARE_SEL and BUF_SEL (R393). -/
def Inst.shareSel (b : Nat) (w : Word) (i : Inst) : Inst :=
  let s := w.toNat % 8
  let size := i.pool.active.getD s 0
  let used := if s < 6 then i.shareUsed s else 0
  i.ctlMap (fun c => (c.store b 0x1E 0x13C w).latchAll b 0x1E 0x140
    [w32 (size + 2 ^ 16 * used), w32 ((if s < 6 then i.lentOut s else 0) + 2 ^ 16 * (used - size))])
def Inst.homeShare (i : Inst) (n : Nat) : Nat :=
  ((List.range 6).find? (fun s => decide (n < ((i.pool.active.take (s + 1)).sum)))).getD 5
def Inst.bufSel (b : Nat) (w : Word) (i : Inst) : Inst :=
  let n := w.toNat % 512
  let v := match i.pool.owned.find n with
    | some e => e.share + 2 ^ 3 * e.lentFrom + 2 ^ 8 * (e.ctx.getD 0x3F) + 2 ^ 16 * e.owners.length
    | none => i.homeShare n * 9 + 2 ^ 8 * 0x3F + 2 ^ 31
  i.ctlMap (fun c => (c.store b 0x1E 0x148 w).latch b 0x1E 0x14C (w32 v))

/-- MBOX SEND (R313, R396): the message is placed whole, or the write ends in a bus error. -/
def Inst.mboxSend (init : Initiator) (w : Word) (i : Inst) : Inst × BusRes :=
  let b := Initiator.bank init
  let v := w.toNat
  let n := bits v 11 8
  let m := bits v 2 0 + (if b = 2 then 8 else 0)
  if v ≠ bits v 2 0 + 2 ^ 8 * n ∨ n = 0 ∨ 8 < n ∨ 4 ≤ (i.box m).length then (i, .error)
  else
    let q := i.mbox.seqs.getD 0 m
    let ws := (List.range n).map (fun k => i.ctl.stored b 0x1F (0x100 + 4 * k))
    let stamp := w32 (2 ^ 24 * q + 2 ^ 20 * n + (if b = 2 then 2 ^ 8 * i.view.idx else 0) + b)
    ({ i with mbox := { boxes := i.mbox.boxes.put m (i.box m ++ [{ words := ws, stamp := stamp }]),
                        seqs := i.mbox.seqs.put m ((q + 1) % 256) } }, .done)

/-- HEAD_SEL (R395). -/
def Inst.headSel (b : Nat) (w : Word) (i : Inst) : Inst :=
  let ws := match (i.box (bits w.toNat 2 0 + 8 * bits w.toNat 8 8)).head? with
    | some m => m.words ++ List.replicate (8 - m.words.length) 0 ++ [m.stamp]
    | none => List.replicate 9 0
  i.ctlMap (fun c => (c.store b 0x1F 0x124 w).latchAll b 0x1F 0x128 ws)

/-- Whether an initiator may pop a mailbox (R313, R396). -/
def mayPop (b : Nat) (v : Nat) : Bool :=
  if v.testBit 8 then b == (if bits v 2 0 < 4 then 0 else 1) else b == 2

/-- A refused access entered in the order log and counted (R299, R307). -/
def Inst.refuse (b page off : Nat) (w : Word) (ctx : Option Nat) (i : Inst) : Inst :=
  (i.order b page off w Ord.refusedInitiator ctx).count Cnt.refusedInitiator 1

/-- A pop that is refused (R313, R396). -/
def Inst.popRefused (b : Nat) (w : Word) (reason : Nat) (i : Inst) : Inst :=
  i.eventBy 0x1F01 0x1F none b [(20, 1, bits w.toNat 2 0), (21, 1, bits w.toNat 8 8), (22, 1, reason)]

/-- MBOX POP (R313, R396). -/
def Inst.mboxPop (init : Initiator) (w : Word) (i : Inst) : Inst × BusRes :=
  let b := Initiator.bank init
  let m := bits w.toNat 2 0 + 8 * bits w.toNat 8 8
  if !mayPop b w.toNat then ((i.popRefused b w 1).refuse b 0x1F 0x14C w none, .refused)
  else match i.box m with
    | [] => (i.popRefused b w 0, .done)
    | _ :: t => ({ i with mbox := { i.mbox with boxes := i.mbox.boxes.put m t } }, .done)

/-- A preset of the selected counter (R345): 48 bits and the wrap count; an index not listed ignores it. -/
def Inst.presetCounter (b : Nat) (w : Word) (i : Inst) : Inst :=
  let k := bits (i.ctl.stored b 0x20 0x100).toNat 7 0
  let v := (i.ctl.stored b 0x20 0x10C).toNat + 2 ^ 32 * bits w.toNat 23 0
  if counterListed k then { i with telem := { i.telem with cnt := { i.telem.cnt with live := i.telem.cnt.live.put k v } } } else i

/-- FREEZE (R346). -/
def Inst.freezeCounters (b : Nat) (i : Inst) : Inst :=
  let j := i.noteThrottle
  { j with telem := { j.telem with cnt := { j.telem.cnt with freeze := j.telem.cnt.freeze.put b j.telem.cnt.live } } }

/-- STEP_SIZE (R347, R398): the ring starts anew at the base as it stands. -/
def Inst.setStepSize (w : Word) (i : Inst) : Inst :=
  let lo := (i.ctl.stored 0 0x20 0x120).toNat
  let hi := (i.ctl.stored 0 0x20 0x124).toNat
  let base := (2 ^ 6 * bits lo 30 0 + 2 ^ 37 * bits hi 26 0) / 4096 * 4096
  { i with telem := { i.telem with stepBase := base, stepSize := w.toNat % 2 ^ 16, stepHead := 0, stepTail := 0 } }

/-- STEP_TAIL (R347, R398). -/
def Inst.setStepTail (b : Nat) (w : Word) (i : Inst) : Inst :=
  let v := w.toNat % 2 ^ 28
  let size := i.telem.stepSize * 4096
  let t := i.telem.stepTail
  if v < size ∧ (v + size - t) % size ≤ (i.telem.stepHead + size - t) % size then { i with telem := { i.telem with stepTail := v } }
  else i.eventBy 0xFF03 0x20 none b [(20, 4, w.toNat)]

end Sys2Proof.Machine
end

