-- ==== Sys2Proof/Machine/ArrJobs.lean ====
section
/-! DEFINITION. The numeric jobs initiators submit (R216, R388, R389). -/

namespace Sys2Proof.Machine

/-- Reserved fields zero, codes defined, dimensions in range (R216). -/
def ArrayDesc.codesOk (d : ArrayDesc) : Bool :=
  !d.reserved && decide (d.format ≤ 6) && decide (d.scale ≤ 2) && decide (1 ≤ d.rows) && decide (1 ≤ d.cols) &&
    (if d.scale = 0 then decide (d.block = 0) && decide (d.scaleAddr = 0) else decide (3 ≤ d.block) && decide (d.block ≤ 8)) &&
    (d.second || decide (d.secondAddr = 0))

/-- A scale only with a format narrower than bfloat16 (R216). -/
def ArrayDesc.scaleOk (d : ArrayDesc) : Bool := d.scale == 0 || decide (2 ≤ d.format)

/-- The block size divides its dimension (R208, R216). -/
def ArrayDesc.blocksOk (isB : Bool) (d : ArrayDesc) : Bool :=
  let byRow := if isB then d.across else !d.across
  d.scale == 0 || (if byRow then d.cols else d.rows) % 2 ^ d.block == 0

/-- A span inside staging, in buffers the initiator owns (R216, R320). -/
def Inst.spanOwned (b : Nat) (s : Nat × Nat) (i : Inst) : Bool :=
  decide (s.1 + s.2 ≤ 2 ^ 25) && (spanBuffers s).all (fun n => match i.pool.owned.find n with
    | some e => e.owners.contains (.init b)
    | none => false)

/-- Lines of the buffers a span touches (R139). -/
def spanLines (s : Nat × Nat) : List Nat := if s.2 = 0 then [] else (List.range ((s.1 + s.2 - 1) / 64 + 1)).drop (s.1 / 64)

/-- Whether a span of the buffers is marked poisoned (R139). -/
def Inst.spanPoison (s : Nat × Nat) (i : Inst) : Bool := (i.poisonedLines .buffers).any (fun n => (spanLines s).contains n)

/-- Bytes written to the buffers, with the marks of their lines (R139; log entry 138). -/
def Inst.fillBuffers (a : Nat) (b : Bytes) (poison : Bool) (i : Inst) : Inst :=
  let ls := spanLines (a, b.length)
  { i with mem := { i.mem with
      staging := i.mem.staging.write a b,
      stagePoison := i.mem.stagePoison.filter (fun l => !(l.use == .buffers && ls.contains l.line)) ++
        (if poison then ls.map (fun n => { use := .buffers, line := n }) else []) } }

/-- Bytes placed in buffers an initiator owns, while the datapath runs (R216, R320; log entry 143). -/
def Inst.place (b : Nat) (ps : List (Nat × Bytes)) (i : Inst) : Inst :=
  if !i.running then i
  else ps.foldl (fun (i : Inst) p => if i.spanOwned b (p.1, p.2.length) then i.fillBuffers p.1 p.2 false else i) i

/-- The job in an initiator's registers (R388). -/
def Inst.jobWanted (b : Nat) (i : Inst) : ArrJob :=
  let r := fun o => (i.ctl.stored b 0x1A o).toNat
  { state := 0, reason := 0, a := r 0x100, b := r 0x104, outA := r 0x108, six := (r 0x10C).testBit 0, work := 0,
    serial := (i.arr.jobs.map (fun j => j.2.serial + 1)).foldl max 0 }

/-- The REASON a job is refused for, 0 for none: the descriptors' own places first, then R389's table in its order. -/
def Inst.jobReason (b : Nat) (j : ArrJob) (i : Inst) : Nat :=
  let da := i.jobDesc j.a
  let db := i.jobDesc j.b
  let c := bits (i.ctl.stored b 0x1A 0x10C).toNat 13 8
  if j.a % 8 ≠ 0 ∨ j.b % 8 ≠ 0 ∨ !i.spanOwned b (j.a, 24) ∨ !i.spanOwned b (j.b, 24) then 5
  else if da.cols ≠ db.rows then 1
  else if !da.codesOk || !db.codesOk then 2
  else if !da.scaleOk || !db.scaleOk then 3
  else if !da.blocksOk false || !db.blocksOk true then 4
  else if j.outA % 64 ≠ 0 ∨ da.dataAddr % 64 ≠ 0 ∨ db.dataAddr % 64 ≠ 0 ∨ !(i.jobSpans j).all (fun s => i.spanOwned b s) then 5
  else if j.six && (i.view.detLock || (i.image c).any (fun m => m.detStrict)) then 6
  else 0

/-- A job slot set. -/
def Inst.setJob (b : Nat) (j : ArrJob) (i : Inst) : Inst := { i with arr := { i.arr with jobs := i.arr.jobs.put b j } }

/-- ARRAY_JOB_DONE logged (R389, R405). -/
def Inst.jobEvent (b : Nat) (j : ArrJob) (i : Inst) : Inst := i.event 0x1A01 none [(20, 1, b), (21, 1, j.state), (22, 1, j.reason)]

/-- JOB_GO (R389): a job that passes is QUEUED, until the array takes it (R201). -/
def Inst.jobGo (b : Nat) (i : Inst) : Inst :=
  let w := i.jobWanted b
  let old := (i.arr.jobs.find b).getD w
  if old.work ≠ 0 then
    let j : ArrJob := { old with state := 4, reason := 7 }
    (i.setJob b j).jobEvent b j
  else
    let r := i.jobReason b w
    if r ≠ 0 then
      let j : ArrJob := { w with state := 4, reason := r }
      (i.setJob b j).jobEvent b j
    else
      i.setJob b { w with state := 1, work := 1 }

/-- Second-level scales of an operand, by row of A or column of B (R209). -/
def Inst.secondOf (d : ArrayDesc) (n : Nat) (i : Inst) : Option (List Word) :=
  if d.second then some (wordsLe n (i.mem.stagingBytes d.secondAddr (4 * n))) else none

/-- The output of a job, row-major binary32 (R209, R216). -/
def Inst.jobOutput (j : ArrJob) (i : Inst) : Bytes :=
  let a := i.jobDesc j.a
  let b := i.jobDesc j.b
  let rd := fun (s n : Nat) => i.mem.stagingBytes s n
  let m := arrayJob (!j.six) a b (rd a.dataAddr (a.rows * arrayRowBytes a)) (rd a.scaleAddr (arrayScaleCount a))
    (rd b.dataAddr (b.rows * arrayRowBytes b)) (rd b.scaleAddr (arrayScaleCount b)) (i.secondOf a a.rows) (i.secondOf b b.cols)
  bytesOfWords m.flatten

/-- Releases that waited for a job of an initiator (R389). -/
def Inst.lateReleases (b : Nat) (i : Inst) : Inst :=
  let ns := (i.pool.owned.filter (fun e => e.2.deferred.contains (.init b))).map Prod.fst
  ns.foldl (fun (i : Inst) n => if i.jobNames b n then i else { i with pool := i.pool.clearOwner n (.init b) }) i

/-- The spans a job reads: every one it names but its output (R216). -/
def Inst.jobReads (j : ArrJob) (i : Inst) : List (Nat × Nat) := (i.jobSpans j).filter (fun s => s.1 ≠ j.outA)

/-- ARRAY_JOB_DONE: the last output of a running job is written (R389); a parked one waits (R200). -/
def Inst.jobDone (b : Nat) (i : Inst) : Inst :=
  match i.arr.jobs.find b with
  | some j =>
    if j.work = 2 ∧ i.running = true ∧ i.arrHolds (.submitted b j.serial) = false then
      let out := i.jobOutput j
      let k : ArrJob := { j with state := 3, reason := 0, work := 0 }
      let n := i.fillBuffers j.outA out ((i.jobReads j).any (fun s => i.spanPoison s))
      ((n.setJob b k).jobEvent b k).lateReleases b
    else i
  | none => i

/-- ARRAY_JOB_DONE. -/
def execArrayJobDone (i : InstId) (bank : Nat) (s : State) : Host.Outcome State Fault Refusal := runInst i (Inst.jobDone bank) s

end Sys2Proof.Machine
end

