-- ==== Sys2Proof/Machine/Control.lean ====
section
/-! DEFINITION. The context control word and its precedence windows, the instance-wide orders, guarded writes, LOCK bits and every
other write of an instance register (R296 to R307). -/

namespace Sys2Proof.Machine

/-- The rank of a context command (R305). -/
def cmdRank : Nat → Nat
  | 1 => 1 | 4 => 1 | 2 => 2 | 3 => 3 | 5 => 4 | _ => 0

/-- Whether a value is a context command: one of the five, no reserved bit set (R305). -/
def cmdOk (w : Word) : Bool :=
  decide (1 ≤ w.toNat % 16) && decide (w.toNat % 16 ≤ 5) && bits w.toNat 7 4 == 0 && bits w.toNat 31 16 == 0

/-- OFFLINE in a context (R123, R305): the instance fences itself and tells its partners, with cause 0x03. -/
def Inst.offlineCtx (x : Nat) (i : Inst) : Inst :=
  match i.image x with
  | none => i
  | some m =>
    let body : DegradedBody := { imageVersion := m.head.version, detector := i.self, entries := [{ home := i.self, cause := 3 }] }
    let j := (i.modMemb x (fun c => { c with offline := true })).fence x 3
    (m.partners i.self).foldl (fun (i : Inst) h => i.send h x 0 .degraded (.degraded body) 0) j

/-- A context command applied (R305): conditions of a LIVE context (R52). -/
def Inst.applyCmd (x cmd init : Nat) (i : Inst) : Inst :=
  let j := i.modRun x (fun r => { r with lastCmd := cmd })
  let k := if !(j.ctx x).live then j else
    match cmd with
    | 1 => j.modRun x (fun r => { r with paused := false, halted := [] })
    | 2 => j.modRun x (fun r => { r with paused := true })
    | 3 => j.modRun x (fun r => { r with evacuate := true })
    | 4 => j.modRun x (fun r => { r with evacuate := false })
    | _ => j.offlineCtx x
  (k.eventBy 0x1204 0x12 (some x) init [(20, 1, cmd), (21, 1, init)]).order init 0x12 0x100 (w32 cmd) Ord.applied (some x)

/-- The commands of a window resolved in bus order (R306): those of the highest rank apply, a repeat once. -/
def Inst.resolve (x rank : Nat) : List (Nat × Nat) → List Nat → Inst → Inst
  | [], _, i => i
  | (cmd, init) :: t, done, i =>
    if cmdRank cmd ≠ rank then (i.order init 0x12 0x100 (w32 cmd) Ord.overruled (some x)).resolve x rank t done
    else if done.contains cmd then (i.order init 0x12 0x100 (w32 cmd) Ord.duplicate (some x)).resolve x rank t done
    else (i.applyCmd x cmd init).resolve x rank t (cmd :: done)

/-- PRECEDENCE_WINDOW_CLOSE (R306). -/
def Inst.windowClose (x : Nat) (i : Inst) : Inst :=
  match (i.ctx x).run.window with
  | none => i
  | some l =>
    let rank := (l.map (fun c => cmdRank c.1)).foldl max 0
    ((i.modRun x (fun r => { r with window := none })).resolve x rank l []).pump

/-- A command accepted: it opens a window or joins the open one (R306). -/
def Inst.acceptCmd (x cmd init : Nat) (i : Inst) : Inst :=
  i.modRun x (fun r => { r with window := some (r.window.getD [] ++ [(cmd, init)]) })

/-- JCS_INST_OFFLINE (R118, R305, R378): offline in every context, STATE FAULTED in the heartbeats. -/
def Inst.instOffline (i : Inst) : Inst :=
  if i.pw.offline then i
  else
    let j : Inst := { i with pw := { i.pw with offline := true } }
    let k := (i.ctxs.map Prod.fst).foldl (fun (i : Inst) x => i.offlineCtx x) j
    ((k.faultRecord { kind := 2, cause := 0x1A, ctx := none, subject := i.self, detector := i.self }).sendHeartbeats).pump

/-- What a guarded register does with an accepted value, and the outcome its order-log entry gives (R303, R304, R307): none where
the entry follows later, at the close of a precedence window. -/
def Inst.applyGuarded (b x page off : Nat) (v : Word) (i : Inst) : Inst × Option Nat :=
  match page, off with
  | 0x10, 0x104 => if v.getLsbD 0 then (i.instOffline, some Ord.applied) else (i, some Ord.refused)
  | 0x10, 0x108 => ({ i with pw := { i.pw with evacuate := v.getLsbD 0 } }, some Ord.applied)
  | 0x10, 0x12C => (i.cmdqFlush b, some Ord.applied)
  | 0x11, 0x104 =>
    let r := (i.ctlMap (CtlSt.store b 0x11 0x104 (v &&& 0xFFFF003F))).mapCommit b v
    (r.1.pump, some (if r.2 then Ord.applied else Ord.refused))
  | 0x12, _ => if cmdOk v then (i.acceptCmd x (v.toNat % 16) b, none) else (i, some Ord.badCommand)
  | 0x21, _ => let r := i.coldErase (bits v.toNat 5 0); (r.1, some (if r.2 then Ord.applied else Ord.refused))
  | _, _ => (i, some Ord.refused)

/-- Whether an initiator may write a guarded register with a value: OFFLINE of the control word is MGMT's (R299, R305). -/
def mayGuard (init : Initiator) (testLock : Bool) (page off : Nat) (v : Word) : Bool :=
  mayWrite init testLock page off && !(page == 0x12 && off == 0x100 && v.toNat % 16 == 5 && Initiator.bank init != 0)

/-- The context an order-log entry names (R307). -/
def ordCtx (x page off : Nat) (v : Word) : Option Nat :=
  if page = 0x12 ∨ (page = 0x1E ∧ off = 0x100) then some x
  else if (page = 0x11 ∧ off = 0x104) ∨ (page = 0x21 ∧ off = 0x108) then some (bits v.toNat 5 0) else none

/-- GUARD_FAULT (R303, R307). -/
def Inst.guardFault (b x page target reason : Nat) (v : Word) (i : Inst) : Inst :=
  ((i.eventBy 0xFF01 page (ordCtx x page target v) b [(20, 2, target), (22, 1, reason)]).count Cnt.guardFaults 1).order b page target v
    Ord.guardFault (ordCtx x page target v)

/-- A write refused by a LOCK (R304). -/
def Inst.lockedOut (b x page off : Nat) (v : Word) (i : Inst) : Inst :=
  (i.order b page off v Ord.locked (ordCtx x page off v)).count Cnt.lockedWrites 1

/-- GUARD_B (R303): the sequence ends; its value is discarded, refused or applied. -/
def Inst.guardB (init : Initiator) (x page : Nat) (w : Word) (i : Inst) : Inst × BusRes :=
  let b := Initiator.bank init
  let g := i.ctl.guard b page
  let j := i.ctlMap (CtlSt.guardEnd b page)
  match g.fault page i.view.time w with
  | some r => (j.guardFault b x page g.target r (g.valueA.getD w), .done)
  | none =>
    let v := ~~~w
    if !mayGuard init i.view.testLock page g.target v then
      (j.refuse b page g.target v (ordCtx x page g.target v), .refused)
    else
      let a := j.applyGuarded b x page g.target v
      match a.2 with
      | some o => (a.1.order b page g.target v o (ordCtx x page g.target v), .done)
      | none => (a.1, .done)

/-- The value of a register beyond its range: RATE 64 does not fit its field; MARGIN_PERIOD has a gap below 60 (R397). -/
def RegSpec.inRange (r : RegSpec) (v : Nat) : Bool :=
  decide (r.lo ≤ v) && decide (v ≤ r.hi) && !(r.page == 0x20 && r.off == 0x140 && decide (1 ≤ v) && decide (v ≤ 59))

/-- What an accepted write of an unguarded register does (R363 to R402); a register without a rule of its own stores the value. -/
def Inst.writeEffect (init : Initiator) (x page off : Nat) (w : Word) (i : Inst) : Inst × BusRes :=
  let b := Initiator.bank init
  match page, off with
  | 0x10, 0x100 => (i.powerCtl w, .done)
  | 0x10, 0x120 => let r := i.cmdqPush b w; (r.1.pump, if r.2 then .done else .error)
  | 0x10, 0x134 => (i.cplBase b w, .done)
  | 0x10, 0x144 => (i.setTail true b w, .done)
  | 0x10, 0x148 => (i.setTail false b w, .done)
  | 0x10, 0x14C => (i.ringIndex b w, .done)
  | 0x10, 0x184 => (i.ologIndex b w, .done)
  | 0x12, 0x118 => (i.setColdPriv b x w, .done)
  | 0x12, 0x140 => (i.setScalarStep x false w, .done)
  | 0x12, 0x144 => (i.setScalarStep x true w, .done)
  | 0x12, 0x148 => (i.armScalars b x, .done)
  | 0x12, o => (i.setScalar x ((o - 0x120) / 4) w, .done)
  | 0x13, 0x120 => (i.planFlush, .done)
  | 0x15, 0x120 => (i.lostView b w, .done)
  | 0x15, 0x144 => (i.recIndex b w, .done)
  | 0x16, 0x018 => ((i.ctlMap (CtlSt.store b page off w)).judgeReserve, .done)
  | 0x16, 0x114 => ((i.ctlMap (CtlSt.store b page off w)).judgeReserve, .done)
  | 0x17, 0x130 => (i.chanSel b w, .done)
  | 0x18, 0x100 => (i.setSizes b w, .done)
  | 0x19, 0x108 => (i.normSel b w, .done)
  | 0x19, 0x124 => (i.progSel b w, .done)
  | 0x19, 0x140 => (i.paramSel b w, .done)
  | 0x1A, 0x110 => (i.jobGo b, .done)
  | 0x1B, 0x10C => (i.lastSel b w, .done)
  | 0x1C, 0x10C => (i.corrSel b w, .done)
  | 0x1E, 0x100 => (i.setCtxMin b x w, .done)
  | 0x1E, 0x114 => (i.allocReq b, .done)
  | 0x1E, 0x11C => (i.releaseBuffer b w, .done)
  | 0x1E, 0x138 => (i.sizeApply b, .done)
  | 0x1E, 0x13C => (i.shareSel b w, .done)
  | 0x1E, 0x148 => (i.bufSel b w, .done)
  | 0x1F, 0x120 => i.mboxSend init w
  | 0x1F, 0x124 => (i.headSel b w, .done)
  | 0x1F, 0x14C => i.mboxPop init w
  | 0x20, 0x110 => (i.presetCounter b w, .done)
  | 0x20, 0x114 => (i.freezeCounters b, .done)
  | 0x20, 0x128 => (i.setStepSize w, .done)
  | 0x20, 0x12C => (i.setStepTail b w, .done)
  | 0x20, 0x134 => (i.lastIndex b w, .done)
  | _, _ => (i.ctlMap (CtlSt.store b page off w), .done)

/-- A write of a page's LOCK (R297, R304): set-only, and itself frozen once set. -/
def Inst.writeLock (b x page : Nat) (w : Word) (i : Inst) : Inst :=
  if !w.getLsbD 0 then i
  else if i.ctl.locks.contains page then i.lockedOut b x page 0x01C w
  else i.ctlMap (fun c => { c with locks := insertNat page c.locks })

/-- A write of a listed register: guarded ones fault, frozen ones are refused, values out of range are ignored (R303, R304, R359). -/
def Inst.writeListed (init : Initiator) (x page off : Nat) (w : Word) (r : RegSpec) (i : Inst) : Inst × BusRes :=
  let b := Initiator.bank init
  if r.acc = .rwg then (i.guardFault b x page off 4 w, .done)
  else if r.rwl && i.ctl.locks.contains page then (i.lockedOut b x page off w, .done)
  else if page = 0x1C ∧ off = 0x018 ∧ w.getLsbD 0 ∧ i.view.testLock = true then (i.lockedOut b x page off w, .done)
  else if !r.inRange (w.toNat &&& r.mask) then (i.ignored b page off w (ordCtx x page off w), .done)
  else i.writeEffect init x page off (if page = 0x1F ∧ off = 0x120 then w else w &&& w32 r.mask)

/-- A write that reaches an instance (R296 to R304). -/
def Inst.writeReg (init : Initiator) (x page off : Nat) (w : Word) (i : Inst) : Inst × BusRes :=
  let b := Initiator.bank init
  match off with
  | 0x010 => (i.ctlMap (fun c => { c with regs := c.regs.put (regKey page 0x010) w }), .done)
  | 0x01C => (i.writeLock b x page w, .done)
  | 0x020 => (i.ctlMap (CtlSt.guardA b page w i.view.time), .done)
  | 0x024 => i.guardB init x page w
  | 0x028 => (i.ctlMap (CtlSt.guardTarget b page w), .done)
  | _ => match regSpec page off with
    | some r => i.writeListed init x page off w r
    | none => (i, .done)

/-- GUARD_TIMEOUT (R303): an open sequence whose 64 cycles have run out is discarded. -/
def Inst.guardTimeout (init : Initiator) (x page : Nat) (i : Inst) : Inst :=
  let b := Initiator.bank init
  let g := i.ctl.guard b page
  match g.valueA with
  | none => i
  | some v => (i.ctlMap (CtlSt.guardEnd b page)).guardFault b x page g.target 1 v

/-- How an access to a page of an instance in its power state goes on (R42, R296, R334). -/
inductive Reach where
  | serve | stall | error
  deriving DecidableEq, Repr

def Inst.reach (page : Nat) (i : Inst) : Reach :=
  let aon := page == 0x10 || page == 0x15
  match i.pw.state with
  | .active => .serve
  | .doze | .nap => .stall
  | .goingOff | .off | .restoring => .error
  | .faulted | .resetting => if aon then .serve else .error
  | .starting => if aon || (i.pw.start != .epoch && i.pw.start != .clock) then .serve else .error

/-- An access performed at an instance: the word read, or what the write ended in. -/
def Inst.access (init : Initiator) (x addr : Nat) (w : Option Word) (i : Inst) : Inst × BusRes :=
  let page := addr / 0x1000
  let off := addr % 0x1000
  let b := Initiator.bank init
  match i.reach page with
  | .error => (i, .error)
  | .stall => (i, .stalled)
  | .serve => match w with
    | some w => i.writeReg init x page off w
    | none =>
      let j := i.counted b page off
      (j.readEffect b x page off, .value (j.readReg b x page off))

/-- PRECEDENCE_WINDOW_CLOSE. -/
def execPrecedenceWindowClose (i : InstId) (ctx : Nat) (s : State) : Host.Outcome State Fault Refusal :=
  runInst i (Inst.windowClose ctx) s

end Sys2Proof.Machine
end

