-- ==== Sys2Proof/Machine/DieRegs.lean ====
section
/-! DEFINITION. The die-wide pages GLOBAL, AON, MUART and TEST (R300, R355 to R358, R363 to R366, R403, R404): what their registers
read, what their writes do, and the pins. -/

namespace Sys2Proof.Machine

/-- A bit for each instance of which a property holds. -/
def instMask (p : Inst → Bool) (v : Vector Inst 8) : Nat := ((List.finRange 8).map (fun k => 2 ^ k.val * b2n (p v[k]))).sum

/-- An instance by number. -/
def instNo (n : Nat) : InstId := Fin.ofNat 8 n

/-- A change of the register file of the die. -/
def Die.ctlMap (f : CtlSt → CtlSt) (d : Die) : Die := { d with ctl := f d.ctl }

/-- A die-wide register as it stands. -/
def Die.reg (page off : Nat) (d : Die) : Nat := (d.ctl.stored 0 page off).toNat

/-- Whether the register bridge owns the UART (R403). -/
def Die.bridge (d : Die) : Bool := (d.reg 0x02 0x018).testBit 16

/-- Whether the UART has the pins: the multiplexer is off and no hand-over runs (R356). -/
def Die.uartOwns (d : Die) : Bool := !d.pins.muxOwns && !d.pins.switching

/-- Whether the TEST page LOCK, the production lock, is set (R355). -/
def Die.testLock (d : Die) : Bool := d.ctl.locks.contains 0x03

/-- JCS_TEST_MUX_EN as it reads: 0 while LOCK is set (R304, R404). -/
def Die.muxEn (d : Die) : Bool := !d.testLock && (d.reg 0x03 0x100).testBit 0

/-- The power-cap controller's estimate, a free value no rule computes: demand in 0.1 W, percentage withheld (R50; log entry
49). -/
def Die.estimate (d : Die) : Nat := (Config.freeValue (d.free * 16 + 15)).toNat

/-- Whether the controller throttles: the estimated demand exceeds the cap (R50). -/
def Die.throttling (d : Die) : Bool := decide (10 * (d.reg 0x00 0x10C % 2 ^ 8) < d.estimate % 2 ^ 16)

/-- JCS_GLOBAL_STATUS (R364). -/
def Die.statusGlobal (v : Vector Inst 8) (d : Die) : Nat :=
  instMask (fun i => i.pw.ready) v + 2 ^ 8 * instMask (fun i => i.pw.state == .faulted) v + 2 ^ 16 * b2n d.detLock +
    2 ^ 17 * b2n d.throttling

/-- JCS_AON_STATUS (R366). -/
def Die.statusAon (v : Vector Inst 8) (d : Die) : Nat :=
  let r := d.ctl.logs.ring
  instMask (fun i => i.telem.pending) v + 2 ^ 8 * b2n (r.mtail != r.head) + 2 ^ 9 * b2n (r.htail != r.head)

/-- JCS_MUART_STATUS (R403). -/
def Die.statusMuart (d : Die) : Nat :=
  d.uart.rx.length + 2 ^ 5 * min d.uart.tx.length 16 + 2 ^ 10 * b2n d.uartOwns + 2 ^ 16 * (d.uart.overruns % 256)

/-- JCS_TEST_STATUS (R404). -/
def Die.statusTest (d : Die) : Nat := flagsOf [(0, d.pins.muxOwns && !d.pins.switching), (1, d.pins.switching), (2, d.testLock)]

/-- STATUS and INT_STATUS of a die-wide page (R297, R300). -/
def Die.status (v : Vector Inst 8) (page : Nat) (d : Die) : Nat :=
  match page with
  | 0x00 => d.statusGlobal v
  | 0x01 => d.statusAon v
  | 0x02 => d.statusMuart
  | _ => d.statusTest
def Die.intStatus (v : Vector Inst 8) (page : Nat) (d : Die) : Nat :=
  match page with
  | 0x00 => d.statusGlobal v &&& 0x2FF00
  | 0x01 => d.statusAon v
  | 0x02 => if d.bridge then 0 else d.statusMuart &&& 0x1F
  | _ => 0

/-- JCS_INT_AON (R300). -/
def Die.intAon (v : Vector Inst 8) (d : Die) : Bool :=
  [0, 1, 2, 3].any (fun p => decide (d.intStatus v p &&& (d.ctl.stored 0 p 0x010).toNat ≠ 0))

/-- The eight signals of a group of the test multiplexer as levels (R355, R404); a pulse is low at the end of a command (log entry
17). -/
def Inst.muxGroup (g : Nat) (i : Inst) : Nat :=
  let busy := i.statusArray
  match g with
  | 0x00 => i.pw.state.code + flagsOf [(4, i.pw.waking || i.pw.wakeAfter), (5, i.pw.entering.isSome), (6, i.pw.state != .off)]
  | 0x01 => if i.pw.state = .nap ∨ i.pw.state = .off then 0 else
      flagsOf [(4, i.emit.stopped), (5, i.opt.work.any (fun w => w.stage == .updating)), (7, !i.cod.backlog.isEmpty)]
  | 0x02 => if i.pw.state = .nap ∨ i.pw.state = .off then 0 else flagsOf [(7, i.scrub.running)]
  | 0x03 => if i.pw.state = .nap ∨ i.pw.state = .off then 0 else
      flagsOf [(0, busy.testBit 0), (1, busy.testBit 1), (2, busy.testBit 2), (3, openGuard i.ctl.guards),
        (4, i.ctxs.any (fun c => c.2.run.window.isSome))]
  | _ => 0

/-- JCS_TMUX_OUT[7:0] (R355, R356, R404): all high while the UART has them or they change hands. -/
def Die.levels (v : Vector Inst 8) (d : Die) : Nat :=
  if d.pins.muxOwns && !d.pins.switching then
    let s := d.reg 0x03 0x104
    (v[instNo (bits s 18 16)]).muxGroup (bits s 7 0)
  else 0xFF

/-- The levels put out. -/
def Die.drive (v : Vector Inst 8) (d : Die) : Die := d.emitOut (.pins (d.levels v))

/-- JCS_AON_LIFE_DATA: the word LIFE_SEL names (R354, R365). -/
def Die.lifeWord (bank : Nat) (v : Vector Inst 8) (d : Die) : Word :=
  let s := (d.ctl.stored bank 0x01 0x104).toNat
  w32 (field (4 * bits s 13 4) 4 (v[instNo (bits s 2 0)]).telem.staged)

/-- Registers of the GLOBAL page. POWER_DEMAND shows the estimate; its percentage is free from 0 to 100 while the controller
throttles (R50, R363; log entry 49). -/
def Die.readGlobal (off : Nat) (d : Die) : Option Word :=
  match off with
  | 0x108 => some (w32 (b2n d.detLock))
  | 0x110 =>
    some (w32 (d.estimate % 2 ^ 16 + 2 ^ 16 * (if d.throttling then d.estimate / 2 ^ 16 % 101 else 0)))
  | 0x114 => some (w32 (d.node % 2 ^ 16))
  | 0x118 => some 0x00010000
  | 0x120 => some (lo32 d.time)
  | _ => none

/-- Registers of the AON page. -/
def Die.readAon (bank off : Nat) (v : Vector Inst 8) (d : Die) : Option Word :=
  match off with
  | 0x100 => some (w32 ((List.finRange 8).map (fun k => 16 ^ k.val * (v[k]).pw.state.code)).sum)
  | 0x108 => some (d.lifeWord bank v)
  | 0x140 => some (w32 d.ctl.logs.ring.head)
  | 0x144 => some (w32 d.ctl.logs.ring.mtail)
  | 0x148 => some (w32 d.ctl.logs.ring.htail)
  | 0x180 => some (w32 d.ctl.logs.oHead)
  | o =>
    if 0x110 ≤ o ∧ o ≤ 0x12C ∧ o % 4 = 0 then some (w32 (v[instNo ((o - 0x110) / 4)]).hb.epoch)
    else if 0x1A0 ≤ o ∧ o ≤ 0x1B4 then some (w32 (d.counts.getD 0 o))
    else none

/-- Registers of the MUART page. -/
def Die.readMuart (off : Nat) (d : Die) : Option Word :=
  match off with
  | 0x100 => some (match d.uart.rx with
    | c :: _ => if d.bridge then 0 else w32 (c.byte.toNat + 2 ^ 8 * b2n c.framing + 2 ^ 9 * b2n c.brk + 2 ^ 31)
    | [] => 0)
  | 0x108 => some (w32 (d.uart.executed % 2 ^ 16 + 2 ^ 16 * (d.uart.discarded % 2 ^ 16)))
  | _ => none

/-- Registers of the TEST page. -/
def Die.readTest (off : Nat) (v : Vector Inst 8) (d : Die) : Option Word :=
  match off with
  | 0x100 => some (w32 (b2n d.muxEn))
  | 0x108 => some (w32 (d.levels v))
  | _ => none

/-- The value of a register of a die-wide page. -/
def Die.readReg (bank page off : Nat) (v : Vector Inst 8) (d : Die) : Word :=
  match d.ctl.readHeader bank page off (d.status v page) (d.intStatus v page) with
  | some w => w32 w
  | none =>
    match (match page with
      | 0x00 => d.readGlobal off
      | 0x01 => d.readAon bank off v
      | 0x02 => d.readMuart off
      | _ => d.readTest off v) with
    | some w => w
    | none => d.ctl.stored bank page off

/-- What a read of a die-wide page does: TIME_HI latched, LIFE_SEL advanced, a received character taken, the free estimate spent. -/
def Die.readEffect (bank page off : Nat) (d : Die) : Die :=
  match page, off with
  | 0x00, 0x120 => d.ctlMap (CtlSt.latch bank 0x00 0x124 (hi32 d.time))
  | 0x00, 0x008 | 0x00, 0x00C | 0x00, 0x014 | 0x00, 0x110 => { d with free := d.free + 1 }
  | 0x01, 0x108 =>
    let s := (d.ctl.stored bank 0x01 0x104).toNat
    d.ctlMap (CtlSt.store bank 0x01 0x104 (w32 (bits s 2 0 + 2 ^ 4 * ((bits s 13 4 + 1) % 1024))))
  | 0x02, 0x100 => if d.bridge then d else { d with uart := { d.uart with rx := d.uart.rx.drop 1 } }
  | _, _ => d

/-- Log records of the die (R303, R304, R307, R383, R417). -/
def Die.guardFault (b page target reason : Nat) (v : Word) (d : Die) : Die :=
  ((d.eventBy 0xFF01 page (some b) [(20, 2, target), (22, 1, reason)]).count DieCnt.guardFaults 1).order b page target v Ord.guardFault
def Die.refuse (b page off : Nat) (v : Word) (d : Die) : Die :=
  (d.order b page off v Ord.refusedInitiator).count DieCnt.refusedInitiator 1
def Die.lockedOut (b page off : Nat) (v : Word) (d : Die) : Die := (d.order b page off v Ord.locked).count DieCnt.lockedWrites 1
def Die.ignored (b page off : Nat) (v : Word) (d : Die) : Die := d.eventBy 0xFF04 page (some b) [(20, 2, off), (24, 4, v.toNat)]

/-- A write of one of the tails of the die ring (R302). -/
def Die.setTail (isM : Bool) (b : Nat) (w : Word) (d : Die) : Die :=
  let r := d.ctl.logs.ring.setTail 64 isM w.toNat
  let e := d.ctlMap (fun c => { c with logs := { c.logs with ring := r.1 } })
  if r.2 then e else e.eventBy 0xFF03 0x01 (some b) [(20, 4, w.toNat)]

/-- The latches of the AON page (R360). -/
def Die.ringIndex (b : Nat) (w : Word) (d : Die) : Die :=
  let e := d.ctl.logs.ring.entries.getD (List.replicate 32 0) w.toNat
  d.ctlMap (fun c => (c.store b 0x01 0x14C w).latchAll b 0x01 0x150 (wordsLe 8 e))
def Die.ologIndex (b : Nat) (w : Word) (d : Die) : Die :=
  let e := d.ctl.logs.olog.getD (List.replicate 16 0) w.toNat
  d.ctlMap (fun c => (c.store b 0x01 0x184 w).latchAll b 0x01 0x188 (wordsLe 4 e))

/-- LIFE_ACK (R352, R354): a matching acknowledgement makes the staged record the one in flash, ends the periodic write that
waited, and lets a held trigger assemble the next. -/
def Inst.lifeAck (seq : Nat) (i : Inst) : Inst :=
  if i.telem.pending && decide (i.telem.stagedSt.seq % 2 ^ 24 = seq) then
    let t := { i.telem with pending := false, flash := i.telem.stagedSt, flashRec := i.telem.staged }
    let u := if i.telem.heldPeriodic then t else
      match t.lifeStart with
      | some s => { t with lifeStart := none, lifeDebt := debtAfter (600 * aonHz) t.lifeDebt s i.view.time }
      | none => t
    let j : Inst := { i with telem := { u with held := false, heldPeriodic := false } }
    if i.telem.held then j.assembleLife else j
  else i

/-- A write of an EPOCH register (R117, R330, R334, R365): taken during the Epoch phase, which it ends. -/
def Inst.setEpoch (pll : Bool) (w : Word) (i : Inst) : Inst :=
  { i with hb := { i.hb with epoch := (w.toNat + 1) % 2 ^ 32 }, pw := { i.pw with start := if pll then .sram else .clock } }

/-- The pins start to change hands where the multiplexer's enable asks for it (R355, R356). -/
def Die.offerPins (d : Die) : Die :=
  if d.muxEn = d.pins.muxOwns ∧ !d.pins.switching then d
  else
    let e := { d with pins := { d.pins with switching := true } }
    e.emitOut (.pins 0xFF)

/-- PIN_HANDOVER (R356, R405). -/
def Die.handover (v : Vector Inst 8) (d : Die) : Die :=
  if d.pins.switching then
    let e := { d with pins := { muxOwns := d.muxEn, switching := false } }
    let f := if d.muxEn = d.pins.muxOwns then e else e.event 0x0302 [(20, 1, b2n d.muxEn)]
    f.drive v
  else d

/-- CTL of the MUART page (R358, R403). -/
def Die.muartCtl (b : Nat) (w : Word) (d : Die) : Die :=
  if w.toNat % 2 ^ 16 = 0 then d.ignored b 0x02 0x018 w
  else
    let e := d.ctlMap (CtlSt.store b 0x02 0x018 w)
    if e.bridge = d.bridge then e else { e with uart := { e.uart with rx := [], tx := [], frame := [], waiting := false } }

/-- TX_DATA (R357, R403). -/
def Die.txData (b : Nat) (w : Word) (d : Die) : Die :=
  if d.bridge || decide (16 ≤ d.uart.tx.length) then d.eventBy 0x0202 0x02 (some b) [(20, 1, w.toNat % 256)]
  else { d with uart := { d.uart with tx := d.uart.tx ++ [BitVec.ofNat 8 w.toNat] } }

/-- MUX_SEL (R355): the new group drives from the next edge on. -/
def Die.muxSel (b : Nat) (v : Vector Inst 8) (w : Word) (d : Die) : Die :=
  let e := d.ctlMap (CtlSt.store b 0x03 0x104 w)
  if e.pins.muxOwns && !e.pins.switching then e.drive v else e

/-- LOCK of the TEST page, the production lock (R253, R304, R355, R404): MUX_EN falls, the pins pass to the UART, and test mode ends in every
instance. -/
def dieTestLock (b : Nat) (d : Die) (v : Vector Inst 8) : Die × Vector Inst 8 :=
  let e := (d.ctlMap (fun c => { (c.store 0 0x03 0x100 0) with locks := insertNat 0x03 c.locks })).eventBy 0x0301 0x03 (some b) [(20, 1, b)]
  onAll (fun i => i.ctlMap (CtlSt.store 0 0x1C 0x018 0)) e.offerPins v

/-- LOCK of a die-wide page (R297, R304). -/
def dieLock (b page : Nat) (w : Word) (d : Die) (v : Vector Inst 8) : Die × Vector Inst 8 :=
  if !w.getLsbD 0 then (d, v)
  else if d.ctl.locks.contains page then (d.lockedOut b page 0x01C w, v)
  else if page = 0x03 then dieTestLock b d v
  else (d.ctlMap (fun c => { c with locks := insertNat page c.locks }), v)

/-- What a guarded register of a die-wide page does with an accepted value (R67, R71, R303, R355). -/
def Die.applyGuarded (b page : Nat) (v : Word) (d : Die) : Die :=
  if page = 0x00 then
    if v.getLsbD 0 && !d.detLock then ({ d with detLock := true }).eventBy 0x0001 0x00 (some b) [] else d
  else (d.ctlMap (CtlSt.store b 0x03 0x100 (v &&& 1))).offerPins

/-- GUARD_B on a die-wide page (R303, R304). -/
def Die.guardB (init : Initiator) (page : Nat) (w : Word) (d : Die) : Die × BusRes :=
  let b := Initiator.bank init
  let g := d.ctl.guard b page
  let e := d.ctlMap (CtlSt.guardEnd b page)
  match g.fault page d.time w with
  | some r => (e.guardFault b page g.target r (g.valueA.getD w), .done)
  | none =>
    if !mayWrite init d.testLock page g.target then (e.refuse b page g.target (~~~w), .refused)
    else if page = 0x03 ∧ d.testLock = true then (e.lockedOut b page g.target (~~~w), .done)
    else ((e.applyGuarded b page (~~~w)).order b page g.target (~~~w) Ord.applied, .done)

/-- GUARD_TIMEOUT on a die-wide page (R303). -/
def Die.guardTimeout (init : Initiator) (page : Nat) (d : Die) : Die :=
  let b := Initiator.bank init
  let g := d.ctl.guard b page
  match g.valueA with
  | none => d
  | some v => (d.ctlMap (CtlSt.guardEnd b page)).guardFault b page g.target 1 v

/-- What an accepted write of an unguarded register of a die-wide page does (R298, R302, R363, R365, R403, R404). -/
def dieWriteEffect (init : Initiator) (page off : Nat) (w : Word) (d : Die) (v : Vector Inst 8) : Die × Vector Inst 8 :=
  let b := Initiator.bank init
  match page, off with
  | 0x01, 0x10C => onInst (instNo (bits w.toNat 2 0)) (Inst.lifeAck (bits w.toNat 31 8)) (d.ctlMap (CtlSt.store b page off w)) v
  | 0x01, 0x144 => (d.setTail true b w, v)
  | 0x01, 0x148 => (d.setTail false b w, v)
  | 0x01, 0x14C => (d.ringIndex b w, v)
  | 0x01, 0x184 => (d.ologIndex b w, v)
  | 0x02, 0x018 => (d.muartCtl b w, v)
  | 0x02, 0x104 => (d.txData b w, v)
  | 0x03, 0x104 => (d.muxSel b v w, v)
  | 0x01, o =>
    if 0x110 ≤ o ∧ o ≤ 0x12C then
      let k := instNo ((o - 0x110) / 4)
      if (v[k]).pw.start = .epoch then
        let r := onInst k (Inst.setEpoch d.pll w) d v
        (r.1.eventBy 0x0102 0x01 (some b) [(20, 1, k.val), (24, 4, (w.toNat + 1) % 2 ^ 32)], r.2)
      else (d.ignored b page o w, v)
    else (d.ctlMap (CtlSt.store b page o w), v)
  | _, _ => (d.ctlMap (CtlSt.store b page off w), v)

/-- A write of a listed register of a die-wide page. -/
def dieWriteListed (init : Initiator) (page off : Nat) (w : Word) (r : RegSpec) (d : Die) (v : Vector Inst 8) : Die × Vector Inst 8 :=
  let b := Initiator.bank init
  if r.acc = .rwg then (d.guardFault b page off 4 w, v)
  else if r.rwl && d.ctl.locks.contains page then (d.lockedOut b page off w, v)
  else if !r.inRange (w.toNat &&& r.mask) then (d.ignored b page off w, v)
  else dieWriteEffect init page off (w &&& w32 r.mask) d v

/-- A write that reaches a die-wide page. -/
def dieWriteReg (init : Initiator) (page off : Nat) (w : Word) (d : Die) (v : Vector Inst 8) : (Die × Vector Inst 8) × BusRes :=
  let b := Initiator.bank init
  match off with
  | 0x010 => ((d.ctlMap (fun c => { c with regs := c.regs.put (regKey page 0x010) w }), v), .done)
  | 0x01C => (dieLock b page w d v, .done)
  | 0x020 => ((d.ctlMap (CtlSt.guardA b page w d.time), v), .done)
  | 0x024 => let r := d.guardB init page w; ((r.1, v), r.2)
  | 0x028 => ((d.ctlMap (CtlSt.guardTarget b page w), v), .done)
  | _ => match regSpec page off with
    | some r => (dieWriteListed init page off w r d v, .done)
    | none => ((d, v), .done)

/-- PIN_HANDOVER. -/
def execPinHandover (s : State) : Host.Outcome State Fault Refusal := runDie (fun d v => (d.handover v, v)) s

/-- UART_TRANSMIT (R356, R357): the transmitter holds its FIFO while the UART has not got the pins. -/
def execUartTransmit (s : State) : Host.Outcome State Fault Refusal :=
  runDie (fun d v =>
    match d.uart.tx with
    | c :: t => (if d.uartOwns then ({ d with uart := { d.uart with tx := t } }).emitOut (.uart c) else d, v)
    | [] => (d, v)) s

end Sys2Proof.Machine
end

