-- ==== Sys2Proof/Machine/Bus.lean ====
section
/-! DEFINITION. The register bus (R42, R295 to R299): an access judged, performed or held by a sleeping instance; the accesses held until
a wake; and every command of the table that is one register access. -/

namespace Sys2Proof.Machine

/-- Whether an initiator has the right to an access. The guard registers are never refused (R299, R303). -/
def allowed (init : Initiator) (testLock : Bool) (page off : Nat) (write : Bool) : Bool :=
  if write then isGuardReg off || mayWrite init testLock page off else mayRead init page

/-- The instance an initiator's instance pages reach (R295, R298). -/
def Die.target (init : Initiator) (d : Die) : InstId :=
  match init with
  | .seq k => k
  | _ => instNo (d.ctl.stored (Initiator.bank init) 0x00 0x100).toNat

/-- The context an initiator's CTX page reaches (R298). -/
def Die.ctxSel (init : Initiator) (d : Die) : Nat := bits (d.ctl.stored (Initiator.bank init) 0x00 0x104).toNat 5 0

/-- An access refused at an instance (R299, R396). -/
def Inst.refuseAccess (a : Stalled) (i : Inst) : Inst :=
  let page := a.addr / 0x1000
  let off := a.addr % 0x1000
  let b := Initiator.bank a.init
  let v := a.write.getD 0
  let j := if page = 0x1F ∧ off = 0x14C ∧ a.write.isSome then i.popRefused b v 1 else i
  j.refuse b page off v (ordCtx a.ctx page off v)

/-- An access held until the instance wakes (R42, R326). -/
def Inst.holdAccess (a : Stalled) (i : Inst) : Inst :=
  (i.ctlMap (fun c => { c with stalled := c.stalled ++ [a] })).wakeUp

/-- An access at an instance, COLD_PRIV carried back to the die (R289). -/
def accessAt (k : InstId) (a : Stalled) (d : Die) (v : Vector Inst 8) : (Die × Vector Inst 8) × BusRes :=
  let i : Inst := { v[k] with view := d.viewFor v k.val }
  let r := i.access a.init a.ctx a.addr a.write
  let j := r.1.arrange
  (({ d.lifeNotice k.val v[k] j with coldPriv := j.view.coldPriv }, v.set k j), r.2)

/-- An access to a page of an instance: a bus error while the instance cannot serve the page, held while it sleeps, refused without the
right, performed otherwise (R42, R296, R299, R334; log entry 109). -/
def instAccess (k : InstId) (a : Stalled) (d : Die) (v : Vector Inst 8) : (Die × Vector Inst 8) × BusRes :=
  match (v[k]).reach (a.addr / 0x1000) with
  | .error => ((d, v), .error)
  | r =>
    if r = .stall then (onInst k (Inst.holdAccess a) d v, .stalled)
    else if !allowed a.init d.testLock (a.addr / 0x1000) (a.addr % 0x1000) a.write.isSome then (onInst k (Inst.refuseAccess a) d v, .refused)
    else accessAt k a d v

/-- An access to a die-wide page, which never stalls (R42). -/
def dieAccess (a : Stalled) (d : Die) (v : Vector Inst 8) : (Die × Vector Inst 8) × BusRes :=
  let page := a.addr / 0x1000
  let off := a.addr % 0x1000
  let b := Initiator.bank a.init
  if !allowed a.init d.testLock page off a.write.isSome then ((d.refuse b page off (a.write.getD 0), v), .refused)
  else match a.write with
    | some w => dieWriteReg a.init page off w d v
    | none => ((d.readEffect b page off, v), .value (d.readReg b page off v))

/-- An access of `bytes` bytes (R295, R296). -/
def busRun (bytes : Nat) (k : InstId) (a : Stalled) (d : Die) (v : Vector Inst 8) : (Die × Vector Inst 8) × BusRes :=
  if bytes ≠ 4 ∨ a.addr % 4 ≠ 0 then ((d, v), .error)
  else if diePage (a.addr / 0x1000) then dieAccess a d v
  else if instPage (a.addr / 0x1000) then instAccess k a d v
  else ((d, v), match a.write with | some _ => .done | none => .value 0)

/-- The reply of an access on the bus (R296, R299): a refused one ends like any other, a read with zero. No register shows data that can
carry a poison mark, so the read status has none (R140). -/
def Die.busReply (write : Bool) (r : BusRes) (d : Die) : Die :=
  match r with
  | .value w => d.emitOut (.busRead w false)
  | .done => d.emitOut .busDone
  | .error => d.emitOut .busError
  | .refused => d.emitOut (if write then .busDone else .busRead 0 false)
  | .stalled => d

/-- Whether a bridge frame is complete, by its opcode (R358). -/
def frameDone (op : Byte) (f : Bytes) : Bool := f.head? == some op && f.length == (if op = 0x52 then 4 else 8)
def frameWhole (f : Bytes) : Bool := frameDone 0x52 f || frameDone 0x57 f

/-- A reply of the bridge, and a frame discarded with a status (R358, R405). -/
def Die.bridgeReply (b : Bytes) (d : Die) : Die := { d with uart := { d.uart with tx := d.uart.tx ++ b } }
def Die.bridgeDiscard (status : Nat) (d : Die) : Die :=
  let e := { d with uart := { d.uart with frame := [], discarded := d.uart.discarded + 1 } }
  (e.bridgeReply [0x15, BitVec.ofNat 8 status]).event 0x0201 [(20, 1, status)]

/-- A character taken into the bridge frame (R358). -/
def Die.bridgeByte (c : RxChar) (d : Die) : Die :=
  if c.framing then d.bridgeDiscard 3
  else if d.uart.frame.isEmpty && c.byte != 0x52 && c.byte != 0x57 then d.bridgeDiscard 4
  else { d with uart := { d.uart with frame := d.uart.frame ++ [c.byte] } }

/-- Characters that waited behind a frame taken up after it (R357, R358). -/
def Die.bridgeRefill : List RxChar → Die → Die
  | [], d => { d with uart := { d.uart with rx := [] } }
  | c :: t, d =>
    if frameWhole d.uart.frame then { d with uart := { d.uart with rx := c :: t } } else (d.bridgeByte c).bridgeRefill t

/-- The end of the bridge's access (R358). -/
def Die.bridgeEnd (write : Bool) (r : BusRes) (d : Die) : Die :=
  let e := { d with uart := { d.uart with frame := [], waiting := false, executed := d.uart.executed + 1 } }
  let f := match r with
    | .value w => e.bridgeReply (0x06 :: natLe 4 w.toNat)
    | .error => e.bridgeReply [0x15, 0x01]
    | .refused => e.bridgeReply [0x15, 0x02]
    | _ => if write then e.bridgeReply [0x06] else e
  f.bridgeRefill f.uart.rx

/-- The answer to an access that has ended, to the bus or to the bridge that waits for it. -/
def Die.answer (a : Stalled) (r : BusRes) (d : Die) : Die :=
  if !a.bridge then d.busReply a.write.isSome r
  else if d.uart.waiting then d.bridgeEnd a.write.isSome r
  else d

/-- The accesses an instance holds, each to one of its pages, performed in order (R296, R42). -/
def settleAll (k : InstId) : List Stalled → Die → Vector Inst 8 → Die × Vector Inst 8
  | [], d, v => (d, v)
  | a :: t, d, v =>
    let r := instAccess k a d v
    settleAll k t (r.1.1.answer a r.2) r.1.2
def settle (k : InstId) (p : Die × Vector Inst 8) : Die × Vector Inst 8 :=
  match (p.2[k]).pw.state with
  | .doze | .nap => p
  | _ => settleAll k (p.2[k]).ctl.stalled p.1 (p.2.set k ((p.2[k]).ctlMap (fun c => { c with stalled := [] })))

/-- Whether an initiator waits for an access that stalls: it makes no other (R296). -/
def initStalled (init : Initiator) (v : Vector Inst 8) : Bool :=
  (List.finRange 8).any (fun k => (v[k]).ctl.stalled.any (fun a => a.init == init))

/-- An access of an initiator on the bus. -/
def busAccess (init : Initiator) (bytes addr : Nat) (w : Option Word) (d : Die) (v : Vector Inst 8) : Die × Vector Inst 8 :=
  if initStalled init v then (d, v)
  else
    let a : Stalled := { init := init, bridge := false, ctx := d.ctxSel init, addr := addr, write := w }
    let r := busRun bytes (d.target init) a d v
    (r.1.1.answer a r.2, r.1.2)

/-- A register written or read by a command. -/
def regWrite (init : Initiator) (page off : Nat) (w : Word) (s : State) : Host.Outcome State Fault Refusal :=
  runDie (busAccess init 4 (regKey page off) (some w)) s
def regRead (init : Initiator) (page off : Nat) (s : State) : Host.Outcome State Fault Refusal :=
  runDie (busAccess init 4 (regKey page off) none) s

/-- A wake completes (R17, R42, R276, R327, R399): the accesses held, the operations buffered, and a request for OFF that waited. -/
def Inst.wakes (i : Inst) : Inst :=
  let j := i.setPState .active
  ({ j with pw := { j.pw with waking := false } }).count Cnt.wakes 1
def Inst.afterWake (i : Inst) : Inst :=
  let j := i.drainFrontEnd
  if j.pw.offFromReq then j.offJudge j.pw.offSpill else j.pump
def dieWake (k : InstId) (d : Die) (v : Vector Inst 8) : Die × Vector Inst 8 :=
  if ((v[k]).pw.state = .doze ∨ (v[k]).pw.state = .nap) ∧ (v[k]).pw.waking = true ∧ d.pll = true then
    let r := settle k (onInst k Inst.wakes d v)
    onInst k Inst.afterWake r.1 r.2
  else (d, v)

/-- An instance that leaves its sleep by a fault or a reset: a request for OFF that waited finds it FAULTED (R327), accesses held end. -/
def Inst.sleepEnds (i : Inst) : Inst := if i.pw.state = .faulted ∧ i.pw.offFromReq = true then i.offJudge i.pw.offSpill else i

/-- WAKE_DONE. -/
def execWakeDone (i : InstId) (s : State) : Host.Outcome State Fault Refusal := runDie (dieWake i) s

/-- WAKE_TIMEOUT (R333). -/
def execWakeTimeout (i : InstId) (s : State) : Host.Outcome State Fault Refusal :=
  runDie (fun d v => settle i (onInst i (fun x => x.wakeTimeout.sleepEnds) d v)) s

/-- EMERGENCY_SHUTDOWN (R333). -/
def execEmergencyShutdown (i : InstId) (s : State) : Host.Outcome State Fault Refusal :=
  runDie (fun d v => settle i (onInst i (fun x => x.emergency.sleepEnds) d v)) s

/-- INSTANCE_RESET (R330). -/
def execInstanceReset (i : InstId) (s : State) : Host.Outcome State Fault Refusal :=
  runDie (fun d v => settle i (onInst i (Inst.reset 0 d.pll) d v)) s

/-- DIE_WARM_RESET (R330 to R332): the LOCK bits of every page are cleared, and accesses held end. -/
def execDieWarmReset (preserve : Bool) (s : State) : Host.Outcome State Fault Refusal :=
  runDie (fun d v =>
    let r := onAll (fun i => if preserve then i.preserve.reset 2 d.pll else i.reset 1 d.pll) d v
    let w := onAll (fun i => i.ctlMap (fun c => { c with locks := [] })) r.1 r.2
    (List.finRange 8).foldl (fun p k => settle k p) (w.1.warmReset, w.2)) s

/-- UART_RECEIVE (R356, R357, R358): with BRIDGE set the character goes to the bridge, or waits behind the frame it works on. -/
def Die.receive (byte : Byte) (stopBit : Bool) (d : Die) : Die :=
  if !d.uartOwns then d
  else
    let c : RxChar := { byte := byte, framing := !stopBit, brk := !stopBit && byte == 0 }
    if d.bridge && !d.uart.waiting && !frameWhole d.uart.frame then d.bridgeByte c
    else if 16 ≤ d.uart.rx.length then { d with uart := { d.uart with overruns := d.uart.overruns + 1 } }
    else { d with uart := { d.uart with rx := d.uart.rx ++ [c] } }
def execUartReceive (byte : Byte) (stopBit : Bool) (s : State) : Host.Outcome State Fault Refusal :=
  runDie (fun d v => (d.receive byte stopBit, v)) s

/-- A complete bridge frame performs its access as DBG (R358). -/
def bridgeRun (op : Byte) (d : Die) (v : Vector Inst 8) : Die × Vector Inst 8 :=
  if d.bridge && !d.uart.waiting && frameDone op d.uart.frame && !initStalled .dbg v then
    let a : Stalled := { init := .dbg, bridge := true, ctx := d.ctxSel .dbg, addr := field 1 3 d.uart.frame,
                         write := if op = 0x57 then some (w32 (field 4 4 d.uart.frame)) else none }
    let r := busRun 4 (d.target .dbg) a d v
    match r.2 with
    | .stalled => ({ r.1.1 with uart := { r.1.1.uart with waiting := true } }, r.1.2)
    | x => (if r.1.1.bridge then r.1.1.bridgeEnd a.write.isSome x else r.1.1, r.1.2)
  else (d, v)

/-- BRIDGE_READ. -/
def execBridgeRead (s : State) : Host.Outcome State Fault Refusal := runDie (bridgeRun 0x52) s

/-- BRIDGE_WRITE. -/
def execBridgeWrite (s : State) : Host.Outcome State Fault Refusal := runDie (bridgeRun 0x57) s

/-- BRIDGE_FRAME_TIMEOUT (R358): a frame in progress is discarded as malformed. -/
def execBridgeFrameTimeout (s : State) : Host.Outcome State Fault Refusal :=
  runDie (fun d v => (if d.bridge && !d.uart.frame.isEmpty && !frameWhole d.uart.frame then d.bridgeDiscard 4 else d, v)) s

/-- REGISTER_WRITE. -/
def execRegisterWrite (init : Initiator) (addr bytes : Nat) (value : Word) (s : State) : Host.Outcome State Fault Refusal :=
  runDie (busAccess init bytes addr (some value)) s

/-- GUARD_TARGET. -/
def execGuardTarget (init : Initiator) (page : Nat) (value : Word) (s : State) : Host.Outcome State Fault Refusal :=
  regWrite init page 0x028 value s

/-- GUARD_A. -/
def execGuardA (init : Initiator) (page : Nat) (value : Word) (s : State) : Host.Outcome State Fault Refusal :=
  regWrite init page 0x020 value s

/-- GUARD_TIMEOUT (R303), on a die-wide page or a page of an instance. -/
def execGuardTimeout (init : Initiator) (page inst : Nat) (s : State) : Host.Outcome State Fault Refusal :=
  runDie (fun d v =>
    if diePage page then (d.guardTimeout init page, v)
    else onInst (instNo inst) (Inst.guardTimeout init (d.ctxSel init) page) d v) s

/-- MAP_COMMIT. -/
def execMapCommit (init : Initiator) (guardB : Word) (s : State) : Host.Outcome State Fault Refusal := regWrite init 0x11 0x024 guardB s

/-- RESUME. -/
def execResume (init : Initiator) (s : State) : Host.Outcome State Fault Refusal := regWrite init 0x12 0x024 (~~~1) s

/-- PAUSE. -/
def execPause (init : Initiator) (s : State) : Host.Outcome State Fault Refusal := regWrite init 0x12 0x024 (~~~2) s

/-- EVACUATE. -/
def execEvacuate (init : Initiator) (s : State) : Host.Outcome State Fault Refusal := regWrite init 0x12 0x024 (~~~3) s

/-- EVACUATE_END. -/
def execEvacuateEnd (init : Initiator) (s : State) : Host.Outcome State Fault Refusal := regWrite init 0x12 0x024 (~~~4) s

/-- OFFLINE. -/
def execOffline (init : Initiator) (s : State) : Host.Outcome State Fault Refusal := regWrite init 0x12 0x024 (~~~5) s

/-- INST_OFFLINE. -/
def execInstOffline (init : Initiator) (s : State) : Host.Outcome State Fault Refusal := regWrite init 0x10 0x024 (~~~1) s

/-- INST_EVACUATE_SET. -/
def execInstEvacuateSet (init : Initiator) (s : State) : Host.Outcome State Fault Refusal := regWrite init 0x10 0x024 (~~~1) s

/-- INST_EVACUATE_CLEAR. -/
def execInstEvacuateClear (init : Initiator) (s : State) : Host.Outcome State Fault Refusal := regWrite init 0x10 0x024 (~~~0) s

/-- CMDQ_FLUSH. -/
def execCmdqFlush (init : Initiator) (guardB : Word) (s : State) : Host.Outcome State Fault Refusal := regWrite init 0x10 0x024 guardB s

/-- COLD_ERASE. -/
def execColdErase (init : Initiator) (guardB : Word) (s : State) : Host.Outcome State Fault Refusal := regWrite init 0x21 0x024 guardB s

/-- DET_LOCK. -/
def execDetLock (init : Initiator) (s : State) : Host.Outcome State Fault Refusal := regWrite init 0x00 0x024 (~~~1) s

/-- MUX_EN. -/
def execMuxEn (init : Initiator) (guardB : Word) (s : State) : Host.Outcome State Fault Refusal := regWrite init 0x03 0x024 guardB s

/-- LOCK. -/
def execLock (init : Initiator) (page : Nat) (s : State) : Host.Outcome State Fault Refusal := regWrite init page 0x01C 1 s

/-- CMDQ_PUSH. -/
def execCmdqPush (init : Initiator) (w : Word) (s : State) : Host.Outcome State Fault Refusal := regWrite init 0x10 0x120 w s

/-- RING_MTAIL, of the INST or the AON page. -/
def execRingMtail (init : Initiator) (page : Nat) (value : Word) (s : State) : Host.Outcome State Fault Refusal := regWrite init page 0x144 value s

/-- RING_HTAIL, of the INST or the AON page. -/
def execRingHtail (init : Initiator) (page : Nat) (value : Word) (s : State) : Host.Outcome State Fault Refusal := regWrite init page 0x148 value s

/-- RING_INDEX, of the INST or the AON page. -/
def execRingIndex (init : Initiator) (page : Nat) (value : Word) (s : State) : Host.Outcome State Fault Refusal := regWrite init page 0x14C value s

/-- OLOG_INDEX, of the INST or the AON page. -/
def execOlogIndex (init : Initiator) (page : Nat) (value : Word) (s : State) : Host.Outcome State Fault Refusal := regWrite init page 0x184 value s

/-- REC_INDEX. -/
def execRecIndex (init : Initiator) (value : Word) (s : State) : Host.Outcome State Fault Refusal := regWrite init 0x15 0x144 value s

/-- LOST_VIEW. -/
def execLostView (init : Initiator) (value : Word) (s : State) : Host.Outcome State Fault Refusal := regWrite init 0x15 0x120 value s

/-- CHAN_SEL. -/
def execChanSel (init : Initiator) (value : Word) (s : State) : Host.Outcome State Fault Refusal := regWrite init 0x17 0x130 value s

/-- NORM_SEL. -/
def execNormSel (init : Initiator) (value : Word) (s : State) : Host.Outcome State Fault Refusal := regWrite init 0x19 0x108 value s

/-- PROG_SEL. -/
def execProgSel (init : Initiator) (value : Word) (s : State) : Host.Outcome State Fault Refusal := regWrite init 0x19 0x124 value s

/-- PARAM_SEL. -/
def execParamSel (init : Initiator) (value : Word) (s : State) : Host.Outcome State Fault Refusal := regWrite init 0x19 0x140 value s

/-- CORR_SEL. -/
def execCorrSel (init : Initiator) (value : Word) (s : State) : Host.Outcome State Fault Refusal := regWrite init 0x1C 0x10C value s

/-- SHARE_SEL. -/
def execShareSel (init : Initiator) (value : Word) (s : State) : Host.Outcome State Fault Refusal := regWrite init 0x1E 0x13C value s

/-- BUF_SEL. -/
def execBufSel (init : Initiator) (value : Word) (s : State) : Host.Outcome State Fault Refusal := regWrite init 0x1E 0x148 value s

/-- HEAD_SEL. -/
def execHeadSel (init : Initiator) (value : Word) (s : State) : Host.Outcome State Fault Refusal := regWrite init 0x1F 0x124 value s

/-- LAST_SEL. -/
def execLastSel (init : Initiator) (value : Word) (s : State) : Host.Outcome State Fault Refusal := regWrite init 0x1B 0x10C value s

/-- LAST_INDEX. -/
def execLastIndex (init : Initiator) (value : Word) (s : State) : Host.Outcome State Fault Refusal := regWrite init 0x20 0x134 value s

/-- LIFE_ACK. -/
def execLifeAck (init : Initiator) (value : Word) (s : State) : Host.Outcome State Fault Refusal := regWrite init 0x01 0x10C value s

/-- USCALAR_ARM. -/
def execUscalarArm (init : Initiator) (value : Word) (s : State) : Host.Outcome State Fault Refusal := regWrite init 0x12 0x148 value s

/-- PLAN_FLUSH. -/
def execPlanFlush (init : Initiator) (value : Word) (s : State) : Host.Outcome State Fault Refusal := regWrite init 0x13 0x120 value s

/-- FREEZE. -/
def execFreeze (init : Initiator) (value : Word) (s : State) : Host.Outcome State Fault Refusal := regWrite init 0x20 0x114 value s

/-- ALLOC_REQ. -/
def execAllocReq (init : Initiator) (value : Word) (s : State) : Host.Outcome State Fault Refusal := regWrite init 0x1E 0x114 value s

/-- RELEASE. -/
def execRelease (init : Initiator) (value : Word) (s : State) : Host.Outcome State Fault Refusal := regWrite init 0x1E 0x11C value s

/-- SIZE_APPLY. -/
def execSizeApply (init : Initiator) (value : Word) (s : State) : Host.Outcome State Fault Refusal := regWrite init 0x1E 0x138 value s

/-- CTX_MIN. -/
def execCtxMin (init : Initiator) (value : Word) (s : State) : Host.Outcome State Fault Refusal := regWrite init 0x1E 0x100 value s

/-- MBOX_SEND. -/
def execMboxSend (init : Initiator) (value : Word) (s : State) : Host.Outcome State Fault Refusal := regWrite init 0x1F 0x120 value s

/-- MBOX_POP. -/
def execMboxPop (init : Initiator) (value : Word) (s : State) : Host.Outcome State Fault Refusal := regWrite init 0x1F 0x14C value s

/-- Bytes an initiator has placed in buffers it owns at the instance it addresses (R216, R320, R389; log entry 143). -/
def placeAt (init : Initiator) (placed : List (Nat × Bytes)) (d : Die) (v : Vector Inst 8) : Vector Inst 8 :=
  let k := d.target init
  v.set k ((v[k]).place (Initiator.bank init) placed)

/-- JOB_GO. -/
def execJobGo (init : Initiator) (go : JobStart) (s : State) : Host.Outcome State Fault Refusal :=
  runDie (fun d v => busAccess init 4 0x1A110 (some go.value) d (placeAt init go.placed d v)) s

/-- STEP_SIZE. -/
def execStepSize (init : Initiator) (value : Word) (s : State) : Host.Outcome State Fault Refusal := regWrite init 0x20 0x128 value s

/-- STEP_TAIL. -/
def execStepTail (init : Initiator) (value : Word) (s : State) : Host.Outcome State Fault Refusal := regWrite init 0x20 0x12C value s

/-- SIZES. -/
def execSizes (init : Initiator) (value : Word) (s : State) : Host.Outcome State Fault Refusal := regWrite init 0x18 0x100 value s

/-- CPL_BASE_HI. -/
def execCplBaseHi (init : Initiator) (value : Word) (s : State) : Host.Outcome State Fault Refusal := regWrite init 0x10 0x134 value s

/-- RESERVE_EXHAUSTED. -/
def execReserveExhausted (init : Initiator) (value : Word) (s : State) : Host.Outcome State Fault Refusal := regWrite init 0x16 0x018 value s

/-- COLD_PRIV. -/
def execColdPriv (init : Initiator) (value : Word) (s : State) : Host.Outcome State Fault Refusal := regWrite init 0x12 0x118 value s

/-- TX_DATA. -/
def execTxData (init : Initiator) (value : Word) (s : State) : Host.Outcome State Fault Refusal := regWrite init 0x02 0x104 value s

/-- MUART_CTL. -/
def execMuartCtl (init : Initiator) (value : Word) (s : State) : Host.Outcome State Fault Refusal := regWrite init 0x02 0x018 value s

/-- MUX_SEL. -/
def execMuxSel (init : Initiator) (value : Word) (s : State) : Host.Outcome State Fault Refusal := regWrite init 0x03 0x104 value s

/-- PARAM_DATA. -/
def execParamData (init : Initiator) (s : State) : Host.Outcome State Fault Refusal := regRead init 0x19 0x144 s

/-- EMIT_LAST_DATA. -/
def execEmitLastData (init : Initiator) (s : State) : Host.Outcome State Fault Refusal := regRead init 0x1B 0x110 s

/-- TELEM_LAST_DATA. -/
def execTelemLastData (init : Initiator) (s : State) : Host.Outcome State Fault Refusal := regRead init 0x20 0x138 s

/-- LIFE_DATA. -/
def execLifeData (init : Initiator) (s : State) : Host.Outcome State Fault Refusal := regRead init 0x01 0x108 s

/-- CNT_LO. -/
def execCntLo (init : Initiator) (s : State) : Host.Outcome State Fault Refusal := regRead init 0x20 0x104 s

/-- TIME_LO. -/
def execTimeLo (init : Initiator) (s : State) : Host.Outcome State Fault Refusal := regRead init 0x00 0x120 s

/-- STEP_LO. -/
def execStepLo (init : Initiator) (s : State) : Host.Outcome State Fault Refusal := regRead init 0x12 0x104 s

/-- BASE_STEP_LO. -/
def execBaseStepLo (init : Initiator) (s : State) : Host.Outcome State Fault Refusal := regRead init 0x12 0x10C s

/-- UACTIVE_STEP_LO. -/
def execUactiveStepLo (init : Initiator) (s : State) : Host.Outcome State Fault Refusal := regRead init 0x12 0x170 s

/-- FLOOR_LO. -/
def execFloorLo (init : Initiator) (s : State) : Host.Outcome State Fault Refusal := regRead init 0x18 0x11C s

/-- IMAGE_STEP_LO. -/
def execImageStepLo (init : Initiator) (s : State) : Host.Outcome State Fault Refusal := regRead init 0x21 0x128 s

/-- RX_DATA. -/
def execRxData (init : Initiator) (s : State) : Host.Outcome State Fault Refusal := regRead init 0x02 0x100 s

/-- EPOCH. -/
def execEpoch (init : Initiator) (inst : InstId) (value : Word) (s : State) : Host.Outcome State Fault Refusal :=
  regWrite init 0x01 (0x110 + 4 * inst.val) value s

/-- CNT_PRESET_HI (R345): where the counter would have counted in the cycle of its preset, LOST_INCREMENTS counts the coincidence. -/
def execCntPresetHi (init : Initiator) (value : Word) (coincident : Bool) (s : State) : Host.Outcome State Fault Refusal :=
  runDie (fun d v =>
    let k := d.target init
    let n := bits ((v[k]).ctl.stored (Initiator.bank init) 0x20 0x100).toNat 7 0
    let lost := coincident && counterListed n && decide (n ≠ Cnt.lostIncrements) && !initStalled init v && (v[k]).reach 0x20 == .serve &&
      allowed init d.testLock 0x20 0x110 true
    let r := busAccess init 4 0x20110 (some value) d v
    if lost then onInst k (fun i => i.count Cnt.lostIncrements 1) r.1 r.2 else r) s

end Sys2Proof.Machine
end

