-- ==== Sys2Proof/Machine/Dispatch.lean ====
section
/-! DEFINITION. The dispatch: one arm per command, each a direct call of its meaning. -/

namespace Sys2Proof.Machine

def exec (i : Instr) (s : State) : Host.Outcome State Fault Refusal :=
  match i with
  | .gradient n g => Sys2Proof.Machine.execGradient n g s
  | .endOfStep n g => Sys2Proof.Machine.execEndOfStep n g s
  | .norm n g => Sys2Proof.Machine.execNorm n g s
  | .beatsWithoutDescriptor n beats => Sys2Proof.Machine.execBeatsWithoutDescriptor n beats s
  | .wake n ctx => Sys2Proof.Machine.execWake n ctx s
  | .updateStart n upsets => Sys2Proof.Machine.execUpdateStart n upsets s
  | .updateWriteback n => Sys2Proof.Machine.execUpdateWriteback n s
  | .emitRecordSend n => Sys2Proof.Machine.execEmitRecordSend n s
  | .emitBackpressure n withheld => Sys2Proof.Machine.execEmitBackpressure n withheld s
  | .codingQueueServe n => Sys2Proof.Machine.execCodingQueueServe n s
  | .stepClose n ctx step => Sys2Proof.Machine.execStepClose n ctx step s
  | .normLate n ctx step => Sys2Proof.Machine.execNormLate n ctx step s
  | .refreshDone n ctx layer tile => Sys2Proof.Machine.execRefreshDone n ctx layer tile s
  | .reemitRequest n r => Sys2Proof.Machine.execReemitRequest n r s
  | .reemitServe n => Sys2Proof.Machine.execReemitServe n s
  | .deltaXor n h b payload => Sys2Proof.Machine.execDeltaXor n h b payload s
  | .shadowPut n h b payload => Sys2Proof.Machine.execShadowPut n h b payload s
  | .commit n h b => Sys2Proof.Machine.execCommit n h b s
  | .ledgerPut n h e => Sys2Proof.Machine.execLedgerPut n h e s
  | .ledgerRetire n h b => Sys2Proof.Machine.execLedgerRetire n h b s
  | .ledgerRead n h b => Sys2Proof.Machine.execLedgerRead n h b s
  | .fragRead n h b => Sys2Proof.Machine.execFragRead n h b s
  | .rebuildPut n h b payload => Sys2Proof.Machine.execRebuildPut n h b payload s
  | .cutover n h b => Sys2Proof.Machine.execCutover n h b s
  | .gradForward n h e => Sys2Proof.Machine.execGradForward n h e s
  | .reemitForward n h r => Sys2Proof.Machine.execReemitForward n h r s
  | .degraded n h b => Sys2Proof.Machine.execDegraded n h b s
  | .mapHandshake n h b => Sys2Proof.Machine.execMapHandshake n h b s
  | .heartbeat n b => Sys2Proof.Machine.execHeartbeat n b s
  | .response n h b => Sys2Proof.Machine.execResponse n h b s
  | .fabricTimeout n entry => Sys2Proof.Machine.execFabricTimeout n entry s
  | .parkedChannelOffer n peer => Sys2Proof.Machine.execParkedChannelOffer n peer s
  | .offWaitOffer n peer => Sys2Proof.Machine.execOffWaitOffer n peer s
  | .retryAfterExpiry n op => Sys2Proof.Machine.execRetryAfterExpiry n op s
  | .joinExpiry n ctx peer => Sys2Proof.Machine.execJoinExpiry n ctx peer s
  | .routeNotice n node direct => Sys2Proof.Machine.execRouteNotice n node direct s
  | .bandwidthNotice n node fraction => Sys2Proof.Machine.execBandwidthNotice n node fraction s
  | .lossNotice n node => Sys2Proof.Machine.execLossNotice n node s
  | .lossCleared n node => Sys2Proof.Machine.execLossCleared n node s
  | .heartbeatSend n => Sys2Proof.Machine.execHeartbeatSend n s
  | .silenceTimeout n peer => Sys2Proof.Machine.execSilenceTimeout n peer s
  | .decodeDone n job => Sys2Proof.Machine.execDecodeDone n job s
  | .rollForward n ctx range => Sys2Proof.Machine.execRollForward n ctx range s
  | .vectorReread n job => Sys2Proof.Machine.execVectorReread n job s
  | .vectorAgreeTimeout n job => Sys2Proof.Machine.execVectorAgreeTimeout n job s
  | .offSourceReplan n job => Sys2Proof.Machine.execOffSourceReplan n job s
  | .chunkRepairDone n job => Sys2Proof.Machine.execChunkRepairDone n job s
  | .rowRepairDone n job => Sys2Proof.Machine.execRowRepairDone n job s
  | .hbmChannelFailure n => Sys2Proof.Machine.execHbmChannelFailure n s
  | .scrubLapStart n => Sys2Proof.Machine.execScrubLapStart n s
  | .scrubSlotRead n read => Sys2Proof.Machine.execScrubSlotRead n read s
  | .scrubLapDone n durationMs => Sys2Proof.Machine.execScrubLapDone n durationMs s
  | .lapLate n => Sys2Proof.Machine.execLapLate n s
  | .scrubForced n => Sys2Proof.Machine.execScrubForced n s
  | .marginSample n hbmTiming hbmVoltage => Sys2Proof.Machine.execMarginSample n hbmTiming hbmVoltage s
  | .marginRestart n => Sys2Proof.Machine.execMarginRestart n s
  | .selfTestDone n nominal steps => Sys2Proof.Machine.execSelfTestDone n nominal steps s
  | .warningEvaluation n => Sys2Proof.Machine.execWarningEvaluation n s
  | .lifeRecordPeriodic n => Sys2Proof.Machine.execLifeRecordPeriodic n s
  | .poolRebuild n => Sys2Proof.Machine.execPoolRebuild n s
  | .dozeAfter n => Sys2Proof.Machine.execDozeAfter n s
  | .napAfter n => Sys2Proof.Machine.execNapAfter n s
  | .powerStateGrant n granted => Sys2Proof.Machine.execPowerStateGrant n granted s
  | .sleepEntryDone n => Sys2Proof.Machine.execSleepEntryDone n s
  | .wakeDone n => Sys2Proof.Machine.execWakeDone n s
  | .wakeTimeout n => Sys2Proof.Machine.execWakeTimeout n s
  | .offRequest n spill => Sys2Proof.Machine.execOffRequest n spill s
  | .offDrainDone n => Sys2Proof.Machine.execOffDrainDone n s
  | .offDrain n => Sys2Proof.Machine.execOffDrain n s
  | .offRollbackDone n => Sys2Proof.Machine.execOffRollbackDone n s
  | .offSaveDone n => Sys2Proof.Machine.execOffSaveDone n s
  | .offEntered n => Sys2Proof.Machine.execOffEntered n s
  | .returnRequest n => Sys2Proof.Machine.execReturnRequest n s
  | .returnPowerUpDone n => Sys2Proof.Machine.execReturnPowerUpDone n s
  | .returnStateRestored n upsets => Sys2Proof.Machine.execReturnStateRestored n upsets s
  | .returnTimeout n => Sys2Proof.Machine.execReturnTimeout n s
  | .imageDelivery n flash manifest seqImage progImage => Sys2Proof.Machine.execImageDelivery n flash manifest seqImage progImage s
  | .programImageReplace n manifest progImage => Sys2Proof.Machine.execProgramImageReplace n manifest progImage s
  | .diePowerOn => Sys2Proof.Machine.execDiePowerOn s
  | .dieWarmReset preserve => Sys2Proof.Machine.execDieWarmReset preserve s
  | .instanceReset n => Sys2Proof.Machine.execInstanceReset n s
  | .pllLock => Sys2Proof.Machine.execPllLock s
  | .sramClearDone n => Sys2Proof.Machine.execSramClearDone n s
  | .pllLossOfLock => Sys2Proof.Machine.execPllLossOfLock s
  | .emergencyShutdown n => Sys2Proof.Machine.execEmergencyShutdown n s
  | .mapLoad n source => Sys2Proof.Machine.execMapLoad n source s
  | .mapCommit init guardB => Sys2Proof.Machine.execMapCommit init guardB s
  | .commitPoint n ctx => Sys2Proof.Machine.execCommitPoint n ctx s
  | .rollbackDone n ctx => Sys2Proof.Machine.execRollbackDone n ctx s
  | .releaseDone n ctx => Sys2Proof.Machine.execReleaseDone n ctx s
  | .caravanSend n => Sys2Proof.Machine.execCaravanSend n s
  | .cutoverSend n ctx range => Sys2Proof.Machine.execCutoverSend n ctx range s
  | .cmdqPush init w => Sys2Proof.Machine.execCmdqPush init w s
  | .paramLoad n source => Sys2Proof.Machine.execParamLoad n source s
  | .load n => Sys2Proof.Machine.execLoad n s
  | .coldLoad n => Sys2Proof.Machine.execColdLoad n s
  | .digestDump n => Sys2Proof.Machine.execDigestDump n s
  | .colonyCheck n => Sys2Proof.Machine.execColonyCheck n s
  | .coldWrite n => Sys2Proof.Machine.execColdWrite n s
  | .eccTestWrite n source => Sys2Proof.Machine.execEccTestWrite n source s
  | .eccTestRead n => Sys2Proof.Machine.execEccTestRead n s
  | .pcieReadCompletion n cmd chunk result => Sys2Proof.Machine.execPcieReadCompletion n cmd chunk result s
  | .nvmeCompletion n ok bytes => Sys2Proof.Machine.execNvmeCompletion n ok bytes s
  | .guardTarget init page value => Sys2Proof.Machine.execGuardTarget init page value s
  | .guardA init page value => Sys2Proof.Machine.execGuardA init page value s
  | .guardTimeout init page inst => Sys2Proof.Machine.execGuardTimeout init page inst s
  | .resume init => Sys2Proof.Machine.execResume init s
  | .pause init => Sys2Proof.Machine.execPause init s
  | .evacuate init => Sys2Proof.Machine.execEvacuate init s
  | .evacuateEnd init => Sys2Proof.Machine.execEvacuateEnd init s
  | .offline init => Sys2Proof.Machine.execOffline init s
  | .precedenceWindowClose n ctx => Sys2Proof.Machine.execPrecedenceWindowClose n ctx s
  | .instOffline init => Sys2Proof.Machine.execInstOffline init s
  | .instEvacuateSet init => Sys2Proof.Machine.execInstEvacuateSet init s
  | .instEvacuateClear init => Sys2Proof.Machine.execInstEvacuateClear init s
  | .cmdqFlush init guardB => Sys2Proof.Machine.execCmdqFlush init guardB s
  | .coldErase init guardB => Sys2Proof.Machine.execColdErase init guardB s
  | .detLock init => Sys2Proof.Machine.execDetLock init s
  | .muxEn init guardB => Sys2Proof.Machine.execMuxEn init guardB s
  | .lock init page => Sys2Proof.Machine.execLock init page s
  | .registerWrite init addr bytes value => Sys2Proof.Machine.execRegisterWrite init addr bytes value s
  | .ringMtail init page value => Sys2Proof.Machine.execRingMtail init page value s
  | .ringHtail init page value => Sys2Proof.Machine.execRingHtail init page value s
  | .ringIndex init page value => Sys2Proof.Machine.execRingIndex init page value s
  | .ologIndex init page value => Sys2Proof.Machine.execOlogIndex init page value s
  | .recIndex init value => Sys2Proof.Machine.execRecIndex init value s
  | .lostView init value => Sys2Proof.Machine.execLostView init value s
  | .chanSel init value => Sys2Proof.Machine.execChanSel init value s
  | .normSel init value => Sys2Proof.Machine.execNormSel init value s
  | .progSel init value => Sys2Proof.Machine.execProgSel init value s
  | .paramSel init value => Sys2Proof.Machine.execParamSel init value s
  | .paramData init => Sys2Proof.Machine.execParamData init s
  | .corrSel init value => Sys2Proof.Machine.execCorrSel init value s
  | .shareSel init value => Sys2Proof.Machine.execShareSel init value s
  | .bufSel init value => Sys2Proof.Machine.execBufSel init value s
  | .headSel init value => Sys2Proof.Machine.execHeadSel init value s
  | .lastSel init value => Sys2Proof.Machine.execLastSel init value s
  | .emitLastData init => Sys2Proof.Machine.execEmitLastData init s
  | .lastIndex init value => Sys2Proof.Machine.execLastIndex init value s
  | .telemLastData init => Sys2Proof.Machine.execTelemLastData init s
  | .lifeData init => Sys2Proof.Machine.execLifeData init s
  | .lifeAck init value => Sys2Proof.Machine.execLifeAck init value s
  | .epoch init inst value => Sys2Proof.Machine.execEpoch init inst value s
  | .uscalarArm init value => Sys2Proof.Machine.execUscalarArm init value s
  | .planFlush init value => Sys2Proof.Machine.execPlanFlush init value s
  | .cntLo init => Sys2Proof.Machine.execCntLo init s
  | .cntPresetHi init value coincident => Sys2Proof.Machine.execCntPresetHi init value coincident s
  | .freeze init value => Sys2Proof.Machine.execFreeze init value s
  | .timeLo init => Sys2Proof.Machine.execTimeLo init s
  | .stepLo init => Sys2Proof.Machine.execStepLo init s
  | .baseStepLo init => Sys2Proof.Machine.execBaseStepLo init s
  | .uactiveStepLo init => Sys2Proof.Machine.execUactiveStepLo init s
  | .floorLo init => Sys2Proof.Machine.execFloorLo init s
  | .imageStepLo init => Sys2Proof.Machine.execImageStepLo init s
  | .allocReq init value => Sys2Proof.Machine.execAllocReq init value s
  | .release init value => Sys2Proof.Machine.execRelease init value s
  | .sizeApply init value => Sys2Proof.Machine.execSizeApply init value s
  | .ctxMin init value => Sys2Proof.Machine.execCtxMin init value s
  | .mboxSend init value => Sys2Proof.Machine.execMboxSend init value s
  | .mboxPop init value => Sys2Proof.Machine.execMboxPop init value s
  | .jobGo init go => Sys2Proof.Machine.execJobGo init go s
  | .arrayJobDone n bank => Sys2Proof.Machine.execArrayJobDone n bank s
  | .stepSize init value => Sys2Proof.Machine.execStepSize init value s
  | .stepTail init value => Sys2Proof.Machine.execStepTail init value s
  | .sizes init value => Sys2Proof.Machine.execSizes init value s
  | .cplBaseHi init value => Sys2Proof.Machine.execCplBaseHi init value s
  | .reserveExhausted init value => Sys2Proof.Machine.execReserveExhausted init value s
  | .coldPriv init value => Sys2Proof.Machine.execColdPriv init value s
  | .txData init value => Sys2Proof.Machine.execTxData init value s
  | .rxData init => Sys2Proof.Machine.execRxData init s
  | .muartCtl init value => Sys2Proof.Machine.execMuartCtl init value s
  | .muxSel init value => Sys2Proof.Machine.execMuxSel init value s
  | .pinHandover => Sys2Proof.Machine.execPinHandover s
  | .uartReceive byte stopBit => Sys2Proof.Machine.execUartReceive byte stopBit s
  | .bridgeRead => Sys2Proof.Machine.execBridgeRead s
  | .bridgeWrite => Sys2Proof.Machine.execBridgeWrite s
  | .bridgeFrameTimeout => Sys2Proof.Machine.execBridgeFrameTimeout s
  | .gradInDescriptorPresented n => Sys2Proof.Machine.execGradInDescriptorPresented n s
  | .diePowerLoss => Sys2Proof.Machine.execDiePowerLoss s
  | .aonClockStop => Sys2Proof.Machine.execAonClockStop s
  | .uartTransmit => Sys2Proof.Machine.execUartTransmit s

end Sys2Proof.Machine
end

