-- ==== Sys2Proof/Safety.lean ====
section
/-! DEFINITION. The terms the statements are written in: an instance as a command finds it, the state after a change of one instance or
of the die, an access that reaches a register, the instance a command is addressed to, and an unpowered die. -/

namespace Sys2Proof.Machine

/-- An instance as a command to it finds it: with its present view of the die. -/
def State.seen (k : InstId) (s : State) : Inst := { s.insts[k] with view := s.die.viewFor s.insts k.val }

/-- The state after a change of one instance: its array turns to what it has now to do (R201), and the die raises LIFE_READY where the
change stages a life record (R354). -/
def State.change (k : InstId) (f : Inst → Inst) (s : State) : State :=
  let i := (f (s.seen k)).arrange
  { s with die := s.die.lifeNotice k.val s.insts[k] i, insts := s.insts.set k i }

/-- The state after a change of the die-wide section alone. -/
def State.changeDie (f : Die → Die) (s : State) : State := { s with die := f s.die }

/-- The answer of an ended access, as the bus shows it (R296). -/
def State.reply (write : Bool) (r : BusRes) (s : State) : State := s.changeDie (Die.busReply write r)

/-- The state after an instance has served a register access (R42): its change, COLD_PRIV carried to the die (R289), and the reply. -/
def State.serve (k : InstId) (write : Bool) (f : Inst → Inst × BusRes) (s : State) : State :=
  let r := f (s.seen k)
  let i := r.1.arrange
  ({ s with die := { s.die.lifeNotice k.val s.insts[k] i with coldPriv := i.view.coldPriv },
            insts := s.insts.set k i }).reply write r.2

/-- The state with bytes an initiator has placed in buffers it owns at an instance (R216, R320; log entry 143). -/
def State.placed (init : Initiator) (k : InstId) (ps : List (Nat × Bytes)) (s : State) : State :=
  { s with insts := s.insts.set k ((s.insts[k]).place (Initiator.bank init) ps) }

/-- An initiator's accesses to instance pages reach an ACTIVE instance of a running die, and it waits for none (R42, R295, R296, R298). -/
def State.busTo (init : Initiator) (k : InstId) (s : State) : Prop :=
  s.supply = .on ∧ initStalled init s.insts = false ∧ s.die.target init = k ∧ (s.insts[k]).pw.state = .active

/-- An initiator's accesses to die-wide pages are taken (R42, R296). -/
def State.busDie (init : Initiator) (s : State) : Prop := s.supply = .on ∧ initStalled init s.insts = false

/-- The state after a change of every instance, in ascending order. -/
def State.changeAll (f : Inst → Inst) (s : State) : State := (List.finRange 8).foldl (fun s k => s.change k f) s

/-- The accesses an instance holds, judged again now that it has left DOZE and NAP (R42, R325); none while it sleeps. -/
def State.settled (k : InstId) (s : State) : State :=
  let r := settle k (s.die, s.insts)
  { s with die := r.1, insts := r.2 }

/-- A page of one instance, named by its number (R295). -/
def pageOfInst (page : Nat) : Prop := instPage page = true ∧ diePage page = false

/-- A write of a listed register that nothing stands in the way of (R299, R303, R304, R359): the initiator has the right, the register is not
guarded, not frozen by `locks`, and takes the value. -/
def writeTaken (init : Initiator) (testLock : Bool) (locks : List Nat) (page off : Nat) (w : Word) : Prop :=
  allowed init testLock page off true = true ∧
    ∃ r, regSpec page off = some r ∧ r.acc ≠ .rwg ∧ (r.rwl && locks.contains page) = false ∧ r.inRange (w.toNat &&& r.mask) = true

/-- The bits of a value a register implements (R359). -/
def masked (page off : Nat) (w : Word) : Word := match regSpec page off with | some r => w &&& w32 r.mask | none => w

/-- A guard sequence that will be accepted (R303, R304): GUARD_A was written with `v` within the last 64 cycles, for a guarded register the
initiator may write with `v`. -/
def guardOpen (c : CtlSt) (init : Initiator) (testLock : Bool) (now page off : Nat) (v : Word) : Prop :=
  (∃ t, c.guard (Initiator.bank init) page = { target := off, valueA := some v, timeA := t } ∧ now ≤ t + 64) ∧ guarded page off = true ∧
    mayGuard init testLock page off v = true

/-- A write of a listed register that an ACTIVE instance takes (R296, R299, R303, R304, R359). -/
def State.takes (init : Initiator) (k : InstId) (page off : Nat) (w : Word) (s : State) : Prop :=
  s.busTo init k ∧ writeTaken init s.die.testLock (s.insts[k]).ctl.locks page off w

/-- A write of a listed register of a die-wide page that is taken. -/
def State.dieTakes (init : Initiator) (page off : Nat) (w : Word) (s : State) : Prop :=
  s.busDie init ∧ writeTaken init s.die.testLock s.die.ctl.locks page off w

/-- A read an ACTIVE instance serves (R42, R299). -/
def State.reads (init : Initiator) (k : InstId) (page : Nat) (s : State) : Prop := s.busTo init k ∧ mayRead init page = true

/-- GUARD_B at an ACTIVE instance will complete a guarded write of `v` (R303). -/
def State.opens (init : Initiator) (k : InstId) (page off : Nat) (v : Word) (s : State) : Prop :=
  s.busTo init k ∧ guardOpen (s.insts[k]).ctl init s.die.testLock s.die.time page off v

/-- An item of GRAD_IN that is taken and judged (R17, R18, R171): the instance is ACTIVE with credit, the item framed. -/
def Inst.gradTaken (g : GradItem) (i : Inst) : Prop :=
  i.pw.state = .active ∧ i.gradCredit g.desc.ctx g.payload.length = true ∧ gradFramed g = true ∧ g.desc.kind = 0

/-- A gradient of a range of layer `l` that this instance serves or is about to serve, of a member context, within the step range
(R13, R14, R156). -/
def Inst.gradHomed (d : GradDesc) (m : MapImage) (l : LayerRec) (i : Inst) : Prop :=
  i.image d.ctx = some m ∧ m.layerOf d.range = some l ∧ (i.ctx d.ctx).memb.fenced = false ∧ (i.ctx d.ctx).memb.offline = false ∧
    i.memb.departed.find? (fun y => decide (y.1 = d.ctx) && decide (y.2.1 = d.range)) = none ∧
    ((i.serves d.ctx d.range).isSome || i.isIncoming d.ctx d.range) = true ∧ stepInRange (i.ctx d.ctx).run.step d.step = true

/-- A gradient that is new (R15, R16): later than the last applied step `a` of its range, and not already accepted. -/
def Inst.gradNew (d : GradDesc) (m : MapImage) (a : Option Nat) (i : Inst) : Prop :=
  a.getD m.head.baseStep < d.step ∧ ∀ w, i.workOf d.ctx d.range d.step = some w → w.stage = .skipped

/-- A control descriptor of GRAD_IN that is taken (R171): ACTIVE, framed, a live member context, within the step range. -/
def Inst.controlTaken (g : GradItem) (i : Inst) : Prop :=
  i.pw.state = .active ∧ gradFramed g = true ∧ (i.ctx g.desc.ctx).live = true ∧ (i.ctx g.desc.ctx).memb.fenced = false ∧
    (i.ctx g.desc.ctx).memb.offline = false ∧ stepInRange (i.ctx g.desc.ctx).run.step g.desc.step = true

/-- An operation as a command brings it: its header holds the code of its body, or one that no operation has (R258). -/
def InOp.formed (o : InOp) : Prop := o.hdr.opcode = o.body.code ∧ ∀ c, o.body = .unlisted c → 12 < c

/-- An operation that arrives whole at an ACTIVE instance in its turn on its channel (R94, R269) and passes the receiver's checks
(R120, R267). -/
def Inst.inTurn (o : InOp) (i : Inst) : Prop :=
  o.formed ∧ o.body.cut = false ∧ i.pw.state = .active ∧ (i.chan (hdrHome o.hdr)).inNext = some o.hdr.seq ∧ o.hdr.seq < 2 ^ 32 ∧
    (i.chan (hdrHome o.hdr)).answered.contains o.hdr.seq = false ∧ (i.chan (hdrHome o.hdr)).deferred.contains o.hdr.seq = false ∧
    (i.chan (hdrHome o.hdr)).waiting.any (fun w => w.hdr.seq = o.hdr.seq) = false ∧ i.receive o.hdr o.body = none

/-- An operation applied and answered (R258, R264): its effect and its answer, then the operations that waited behind it on the channel;
what an earlier attempt brought of it is gone (R136). -/
def Inst.applied (o : InOp) (f : Inst → Inst × RespBody) (i : Inst) : Inst :=
  let j := i.forgetPartial o
  (((f j).1.answerOp o (f j).2 0).drainChan (hdrHome o.hdr) 64).checkAllDone.pump

/-- A body of zeros. -/
def zeroCommit : CommitBody :=
  { stripe := 0, row := 0, srcPos := 0, dstRole := 0, dstIndex := 0, first := false, reconstructed := false, mask := 0, step := 0,
    prev := 0, digest := 0 }

/-- The command by which an operation of the fabric arrives at an instance (R258); one whose header holds a code no operation has is
malformed whatever follows it. -/
def arrival (k : InstId) (o : InOp) : Instr :=
  match o.body with
  | .delta b p => .deltaXor k o.hdr b p
  | .shadow b p => .shadowPut k o.hdr b p
  | .commit b => .commit k o.hdr b
  | .ledgerPut e => .ledgerPut k o.hdr e
  | .ledgerRetire b => .ledgerRetire k o.hdr b
  | .ledgerRead b => .ledgerRead k o.hdr b
  | .fragRead b => .fragRead k o.hdr b
  | .rebuildPut b p => .rebuildPut k o.hdr b p
  | .cutover b => .cutover k o.hdr b
  | .gradForward e => .gradForward k o.hdr e
  | .reemitForward r => .reemitForward k o.hdr r
  | .degraded b => .degraded k o.hdr b
  | .handshake b => .mapHandshake k o.hdr b
  | .unlisted _ => .commit k o.hdr zeroCommit

/-- The operation is a handshake that resets its channel (R271). -/
def InOp.resets (o : InOp) : Bool := o.body.isReset

/-- The instance a command that is no register access is addressed to, or none where it concerns the die or all instances. -/
def instOf : Instr → Option InstId
  | .gradient i _ | .endOfStep i _ | .norm i _ | .beatsWithoutDescriptor i _ | .wake i _ | .updateStart i _ | .updateWriteback i
  | .emitRecordSend i | .emitBackpressure i _ | .codingQueueServe i | .stepClose i _ _ | .normLate i _ _ | .refreshDone i _ _ _
  | .reemitRequest i _ | .reemitServe i | .deltaXor i _ _ _ | .shadowPut i _ _ _ | .commit i _ _ | .ledgerPut i _ _ | .ledgerRetire i _ _
  | .ledgerRead i _ _ | .fragRead i _ _ | .rebuildPut i _ _ _ | .cutover i _ _ | .gradForward i _ _ | .reemitForward i _ _ | .degraded i _ _
  | .mapHandshake i _ _ | .heartbeat i _ | .response i _ _ | .fabricTimeout i _ | .parkedChannelOffer i _ | .offWaitOffer i _
  | .retryAfterExpiry i _ | .joinExpiry i _ _ | .routeNotice i _ _ | .bandwidthNotice i _ _ | .lossNotice i _ | .lossCleared i _
  | .heartbeatSend i | .silenceTimeout i _ | .decodeDone i _ | .rollForward i _ _ | .vectorReread i _ | .vectorAgreeTimeout i _
  | .offSourceReplan i _ | .chunkRepairDone i _ | .rowRepairDone i _ | .hbmChannelFailure i | .scrubLapStart i | .scrubSlotRead i _
  | .scrubLapDone i _ | .lapLate i | .scrubForced i | .marginSample i _ _ | .marginRestart i | .selfTestDone i _ _ | .warningEvaluation i
  | .lifeRecordPeriodic i | .poolRebuild i | .dozeAfter i | .napAfter i | .powerStateGrant i _ | .sleepEntryDone i | .wakeDone i
  | .wakeTimeout i | .offRequest i _ | .offDrainDone i | .offDrain i | .offRollbackDone i | .offSaveDone i | .offEntered i | .returnRequest i
  | .returnPowerUpDone i | .returnStateRestored i _ | .returnTimeout i | .imageDelivery i _ _ _ _ | .programImageReplace i _ _
  | .instanceReset i | .sramClearDone i | .emergencyShutdown i | .mapLoad i _ | .commitPoint i _ | .rollbackDone i _ | .releaseDone i _
  | .caravanSend i | .cutoverSend i _ _ | .paramLoad i _ | .load i | .coldLoad i | .digestDump i | .colonyCheck i | .coldWrite i
  | .eccTestWrite i _ | .eccTestRead i | .pcieReadCompletion i _ _ _ | .nvmeCompletion i _ _ | .precedenceWindowClose i _ | .arrayJobDone i _
  | .gradInDescriptorPresented i => some i
  | .diePowerOn | .dieWarmReset _ | .pllLock | .pllLossOfLock | .mapCommit _ _ | .cmdqPush _ _ | .guardTarget _ _ _ | .guardA _ _ _
  | .guardTimeout _ _ _ | .resume _ | .pause _ | .evacuate _ | .evacuateEnd _ | .offline _ | .instOffline _ | .instEvacuateSet _
  | .instEvacuateClear _ | .cmdqFlush _ _ | .coldErase _ _ | .detLock _ | .muxEn _ _ | .lock _ _ | .registerWrite _ _ _ _ | .ringMtail _ _ _
  | .ringHtail _ _ _ | .ringIndex _ _ _ | .ologIndex _ _ _ | .recIndex _ _ | .lostView _ _ | .chanSel _ _ | .normSel _ _ | .progSel _ _
  | .paramSel _ _ | .paramData _ | .corrSel _ _ | .shareSel _ _ | .bufSel _ _ | .headSel _ _ | .lastSel _ _ | .emitLastData _ | .lastIndex _ _
  | .telemLastData _ | .lifeData _ | .lifeAck _ _ | .epoch _ _ _ | .uscalarArm _ _ | .planFlush _ _ | .cntLo _ | .cntPresetHi _ _ _
  | .freeze _ _ | .timeLo _ | .stepLo _ | .baseStepLo _ | .uactiveStepLo _ | .floorLo _ | .imageStepLo _ | .allocReq _ _ | .release _ _
  | .sizeApply _ _ | .ctxMin _ _ | .mboxSend _ _ | .mboxPop _ _ | .jobGo _ _ | .stepSize _ _ | .stepTail _ _ | .sizes _ _ | .cplBaseHi _ _
  | .reserveExhausted _ _ | .coldPriv _ _ | .txData _ _ | .rxData _ | .muartCtl _ _ | .muxSel _ _ | .pinHandover | .uartReceive _ _ | .bridgeRead
  | .bridgeWrite | .bridgeFrameTimeout | .diePowerLoss | .aonClockStop | .uartTransmit => none

/-- Commands that turn the supply or the AON clock on or off (R321, R334, R342). -/
def ofSupply : Instr → Bool
  | .diePowerOn => true
  | .diePowerLoss => true
  | .aonClockStop => true
  | _ => false

/-- An unpowered die holds nothing but its node number, its non-volatile storage and the model's own counter of free values (R331, R342; log
entries 5, 6 and 9). -/
def State.darkWhenOff (s : State) : Prop :=
  s.supply = .off → s.die.dark = s.die ∧ ∀ k : InstId, Inst.dark k.val s.insts[k] = s.insts[k]

/-- Unread entries of a ring of `n` entries, as the MGMT reader counts them (R302). -/
def Ring.unread (n : Nat) (r : Ring) : Nat := (r.head + n - r.mtail) % n

/-- The indices of a ring lie within it (R302). -/
def Ring.inside (n : Nat) (r : Ring) : Prop := r.head < n ∧ r.mtail < n ∧ r.htail < n

end Sys2Proof.Machine
end

