-- ==== Sys2Proof/Certificates/Slice0/Obligations.lean ====
section
/-! DEFINITION. The statements about the block, from its rules. Completion statements name the commands they are about and say, under
hypotheses on the state and the operands alone, which next state the command answers; `State.change k f` is the state after a change of
instance `k` alone, so each equation is the frame of its command as well. -/

open Sys2Proof Sys2Proof.Machine

/-- R13 to R16, R19, R22, R34: an item of GRAD_IN that is taken, homed here or arriving, new, of a layer that runs, well formed, not
poisoned, and not late for its scalars, is accepted as pending work of its range. -/
def Obligations.GradientAccepted : Prop :=
  ∀ (s : State) (k : InstId) (g : GradItem) (m : MapImage) (l : LayerRec) (j : Inst) (a : Option Nat), s.supply = .on →
    let i := (s.seen k).startFlag
    let d := g.desc
    i.gradTaken g → i.gradHomed d m l → i.appliedStep d.ctx d.range = (j, a) → j.gradNew d m a →
    (j.ctx d.ctx).run.halted.contains l.id = false → d.layer = l.id → gradWellFormed d.format m.width d.payloadBytes g.payload = true →
    g.poisoned = false →
    (j.stepClosed d.ctx d.step = true → (∃ p, j.program l.program = some p ∧ p.scalars = true) → (j.scalarsOf d.ctx l.id d.step).isSome = true) →
    exec (.gradient k g) s = .next (s.change k (fun _ => (j.acceptGrad d.ctx m l d g.payload (i.serves d.ctx d.range).isSome).pump))

/-- R13 to R16, R142, R170: what a taken item that is not accepted does. One whose context has no map is counted in GRAD_UNHOMED; of a
homed one in the step range, one not later than the last applied step in GRAD_DUP, one of a halted layer in LAYER_HALTED, a poisoned one
in GRAD_POISON, each discarded. -/
def Obligations.GradientDiscarded : Prop :=
  ∀ (s : State) (k : InstId) (g : GradItem), s.supply = .on →
    let i := (s.seen k).startFlag
    let d := g.desc
    i.gradTaken g →
    (i.image d.ctx = none →
      exec (.gradient k g) s = .next (s.change k (fun i =>
        ((i.startFlag.tally d.ctx 2).event 0x1907 (some d.ctx) [(20, 6, d.range), (26, 6, d.step)]).pump))) ∧
    (∀ m l j a, i.gradHomed d m l → i.appliedStep d.ctx d.range = (j, a) →
      (d.step ≤ a.getD m.head.baseStep →
        exec (.gradient k g) s = .next (s.change k (fun _ =>
          ((j.tally d.ctx 1).event 0x1909 (some d.ctx) [(20, 6, d.range), (26, 6, d.step)]).pump))) ∧
      (j.gradNew d m a → (j.ctx d.ctx).run.halted.contains l.id = true →
        exec (.gradient k g) s = .next (s.change k (fun _ => (j.tally d.ctx 11).pump))) ∧
      (j.gradNew d m a → (j.ctx d.ctx).run.halted.contains l.id = false → d.layer = l.id →
        gradWellFormed d.format m.width d.payloadBytes g.payload = true → g.poisoned = true →
        exec (.gradient k g) s = .next (s.change k (fun _ =>
          (((j.tally d.ctx 5).event 0x190A (some d.ctx) [(20, 6, d.range), (26, 6, d.step)]).arrivedEmpty d.ctx l d.range d.step
            (d.flags.testBit 0)).pump))))

/-- R14, R22, R34: an accepted item of a range this instance does not yet serve leaves the step counter at the larger step, the item as
pending work and the step opened; of memory, poison marks left by an earlier item in its place are cleared; other work, the rest of memory,
coding, fabric, pool and power state stand. -/
def Obligations.AcceptanceRecordsWork : Prop :=
  ∀ (i : Inst) (x : Nat) (m : MapImage) (l : LayerRec) (d : GradDesc) (payload : Bytes),
    let j := i.acceptGrad x m l d payload false
    ((j.ctx x).run.step = max (i.ctx x).run.step d.step) ∧ ((j.ctx x).run.opened = insertNat d.step (i.ctx x).run.opened) ∧
    (∃ w, w ∈ j.opt.work ∧ w.ctx = x ∧ w.q = d.range ∧ w.step = d.step ∧ w.stage = .pending ∧ w.payload = payload ∧ w.putsDue = []) ∧
    (∀ v ∈ i.opt.work, (v.ctx ≠ x ∨ v.q ≠ d.range ∨ v.step ≠ d.step) → v ∈ j.opt.work) ∧
    (j.mem = (i.unmark (.gradient x d.range d.step)).mem ∧ j.cod = i.cod ∧ j.fab = i.fab ∧ j.pool = i.pool ∧ j.pw = i.pw)

/-- R23, R33, R59, R171, R187, R188, R326: END_OF_STEP and NORM that are taken and new; those of the base step or an earlier one,
and NORMs that came before, are counted as duplicates; a run of beats without a descriptor, counted once; hints
that wake a sleeping instance and are ignored by an ACTIVE one. -/
def Obligations.GradInControlItems : Prop :=
  ∀ (s : State) (k : InstId), s.supply = .on →
    let i := s.seen k
    (∀ g m, i.controlTaken g → i.image g.desc.ctx = some m → i.atBase g.desc.ctx g.desc.step = false →
      i.stepClosed g.desc.ctx g.desc.step = false → (i.ctx g.desc.ctx).run.endSteps.any (fun e => e.1 = g.desc.step) = false →
      exec (.endOfStep k g) s = .next (s.change k (fun i =>
        ((sortBy (fun l => l.firstParam) m.layers).foldl (fun i l => i.tryPartial g.desc.ctx l g.desc.step true)
          ((i.startFlag.modRun g.desc.ctx (fun r => { r with step := max r.step g.desc.step })).modRun g.desc.ctx (fun r =>
            { r with endSteps := r.endSteps ++ [(g.desc.step, i.view.time)], opened := insertNat g.desc.step r.opened }))).pump))) ∧
    (∀ g, i.controlTaken g → i.atBase g.desc.ctx g.desc.step = false → (i.ctx g.desc.ctx).run.normSeen.contains g.desc.step = false →
      exec (.norm k g) s = .next (s.change k (fun i =>
        let inc := g.desc.flags.testBit 1
        let j := (i.startFlag.modRun g.desc.ctx (fun r => { r with step := max r.step g.desc.step })).modRun g.desc.ctx (fun r =>
          { r with norms := lastN 2 (insertBy Prod.fst (g.desc.step, g.desc.normSq, inc) r.norms),
                   normSeen := insertNat g.desc.step r.normSeen, normLate := r.normLate.filter (· ≠ g.desc.step) })
        let n := if inc then (j.event 0x190F (some g.desc.ctx) [(24, 6, g.desc.step)]).modMark g.desc.ctx g.desc.step (fun m =>
          { m with flags := m.flags ||| 1 }) else j
        (n.refetch g.desc.ctx g.desc.step).pump))) ∧
    (∀ g, i.controlTaken g → (i.atBase g.desc.ctx g.desc.step = true ∨ (i.ctx g.desc.ctx).run.normSeen.contains g.desc.step = true) →
      exec (.norm k g) s = .next (s.change k (fun i =>
        ((i.startFlag.tally g.desc.ctx 1).event 0x1909 (some g.desc.ctx) [(20, 6, 0), (26, 6, g.desc.step)]).pump))) ∧
    (∀ g, i.controlTaken g → i.atBase g.desc.ctx g.desc.step = true →
      exec (.endOfStep k g) s = .next (s.change k (fun i =>
        ((i.startFlag.tally g.desc.ctx 1).event 0x1909 (some g.desc.ctx) [(20, 6, 0), (26, 6, g.desc.step)]).pump))) ∧
    (∀ beats, i.pw.state = .active → beats ≠ 0 → i.opt.stray = false →
      exec (.beatsWithoutDescriptor k beats) s = .next (s.change k (fun i =>
        (Inst.count Cnt.gradMalformed 1 { i with opt := { i.opt with stray := true } }).events
          [(0x190B, 0x19, [(20, 12, 0)]), (0x190C, 0x19, [(20, 12, 0)]), (0x190D, 0x19, [(20, 8, 0)])] none none))) ∧
    (∀ beats, i.pw.state = .active → i.opt.stray = true → exec (.beatsWithoutDescriptor k beats) s = .next (s.change k id)) ∧
    (∀ x, (i.pw.state = .doze ∨ i.pw.state = .nap) → i.pw.entering = none →
      exec (.wake k x) s = .next (s.change k (fun i => { i with pw := { i.pw with waking := true, request := none } })) ∧
      exec (.gradInDescriptorPresented k) s = .next (s.change k (fun i => { i with pw := { i.pw with waking := true, request := none } }))) ∧
    (∀ x, i.pw.state = .active → exec (.wake k x) s = .next (s.change k id) ∧ exec (.gradInDescriptorPresented k) s = .next (s.change k id))

/-- R33, R189, R347, R348: a step that may close closes: its per-step record is put into the host ring, the counts begin again, and the step
is among the closed ones; a norm that is awaited is announced late once. -/
def Obligations.StepClosing : Prop :=
  ∀ (s : State) (k : InstId) (x step : Nat), s.supply = .on →
    let i := s.seen k
    (∀ m, i.image x = some m → i.running = true → i.mayClose x step = true →
      exec (.stepClose k x step) s = .next (s.change k (fun i =>
        let r := i.stepRecord m x step
        let j := r.1.putStepRecord x step r.2
        let c := (j.setTally { j.tallyOf x with counts := List.replicate 12 0, marks := (j.tallyOf x).marks.filter (fun q => q.step ≠ step),
                                                lagMax := j.maxLag x, throttledAt := j.telem.throttled }).modRun x
          (fun q => { q with closed := insertNat step q.closed, endSteps := q.endSteps.filter (fun e => e.1 ≠ step) })
        let n : Inst := { c with emit := { c.emit with tally := c.emit.tally.filter (fun q => !(decide (q.ctx = x) && decide (q.step = step))) } }
        let w : Inst := if n.boot.trial && !n.pw.trialReady then { n with pw := { n.pw with trialTest := true } } else n
        ((w.event 0x2001 (some x) [(24, 6, step)]).retireScalars x).pump))) ∧
    (i.mayClose x step = false → exec (.stepClose k x step) s = .next (s.change k id)) ∧
    (i.awaitsNorm x step = true → (i.ctx x).run.normLate.contains step = false →
      exec (.normLate k x step) s = .next (s.change k (fun i =>
        let j := ((i.count Cnt.normLate 1).event 0x1901 (some x) [(24, 6, step)]).modRun x (fun r =>
          { r with normLate := insertNat step r.normLate })
        if i.stepClosed x step then j else j.modMark x step (fun m => { m with flags := m.flags ||| 2 })))) ∧
    (i.awaitsNorm x step = false → exec (.normLate k x step) s = .next (s.change k id))

/-- R24, R25, R172: an update that may start, the first in the order of arrival, starts; where none may, what each waits for is noted; and
memory upsets that arrive with it land. R27, R28, R33: the update in flight that is written back first writes its chunks, each with its coding
record, and finishes its ranges; R200, R201: a preconditioned tile that waits for the array, or is parked off it, is not written yet. -/
def Obligations.UpdatesRun : Prop :=
  ∀ (s : State) (k : InstId), s.supply = .on →
    let i := s.seen k
    (∀ us, (i.upsets us).running = true →
      exec (.updateStart k us) s = .next (s.change k (fun i => (Inst.startFirst (i.upsets us).startOrder (i.upsets us)).pump))) ∧
    (∀ (j : Inst) (a : Nat × Nat × Nat) (rest : List (Nat × Nat × Nat)), (i.upsets []).startOrder = a :: rest →
      i.tryUnit a.1 a.2.1 a.2.2 = .done j → i.running = true → exec (.updateStart k []) s = .next (s.change k (fun _ => j.pump))) ∧
    (∀ f rest m, i.opt.flights = f :: rest → f.tile.any (fun n => i.arrHolds (.tile f.ctx f.layer n f.step)) = false →
      i.image f.ctx = some m → f.standin = none →
      exec (.updateWriteback k) s = .next (s.change k (fun i =>
        (f.ranges.foldl (fun (i : Inst) q => i.finishRange m f q)
          (f.newChunks.foldl (fun (i : Inst) c => i.writeHome m f c) { i with opt := { i.opt with flights := rest } })).pump))) ∧
    (∀ f rest m l, i.opt.flights = f :: rest → f.tile.any (fun n => i.arrHolds (.tile f.ctx f.layer n f.step)) = false →
      i.image f.ctx = some m → f.standin = some l →
      exec (.updateWriteback k) s = .next (s.change k (fun i =>
        (f.ranges.foldl (fun (i : Inst) q => i.finishRange m f q)
          (f.newChunks.foldl (fun (i : Inst) c => i.writeStandin m f c) { i with opt := { i.opt with flights := rest } })).pump))) ∧
    (∀ f rest, i.opt.flights = f :: rest → f.tile.any (fun n => i.arrHolds (.tile f.ctx f.layer n f.step)) = true →
      exec (.updateWriteback k) s = .next (s.change k id)) ∧
    (i.opt.flights = [] → exec (.updateWriteback k) s = .next (s.change k id))

/-- R27, R89, R103, R139: what a write back of a home's own chunk leaves: the chunk written with the step as its version, POISON where a line
of it was marked in staging, then its record in the backlog. -/
def Obligations.WritebackRecordsChunk : Prop :=
  ∀ (i : Inst) (m : MapImage) (f : Flight) (c : FlightChunk) (a : Nat), i.chunkSlot c.chunk = some a →
    i.writeHome m f c =
      (((i.readRec a).1.writeChunk a c.new
          { version := f.step % 2 ^ 32, digest := crc64 c.new,
            attr := ((i.readRec a).2.attr &&& 8) ||| b2n (i.stagedPoison c.chunk.staged) }).addRecord m c.chunk f.step
        (if i.isValid a then (i.readRec a).2.version else 0) (!i.isValid a) c.old c.new f.tformat false false).noteMoved c (f.step % 2 ^ 32)
        (if i.isValid a then (i.readRec a).2.version else 0)

/-- R229, R232, R233, R235: where no re-emit request waits, a record that may go goes out on EMIT, is counted, and its range counts as emitted;
where one waits, what can be answered of it goes first; while EMIT is withheld nothing goes; withholding and granting EMIT set one bit. -/
def Obligations.EmitSends : Prop :=
  ∀ (s : State) (k : InstId), s.supply = .on →
    let i := s.seen k
    (∀ b, i.running = true → i.emit.stopped = false → i.emit.reemit = [] → i.emit.waiting.find? (fun b => i.sendable b) = some b →
      b.standin = none →
      exec (.emitRecordSend k) s = .next (s.change k (fun i =>
        let j : Inst := { i with emit := { i.emit with waiting := i.emit.waiting.filter (fun o => o ≠ b), last := b.bytes.take 64 },
                                 out := i.out ++ [.emit b.bytes] }
        let n := (emitCounters.zip (1 :: b.counts)).foldl (fun i c => i.count c.1 c.2)
          ((j.emitTally b).modWork b.ctx b.q b.step (fun w => { w with emitted := true }))
        { n with opt := { n.opt with work := n.opt.work.filter (fun w => !(w.emitted && w.retired)) } }))) ∧
    (∀ r rest, i.running = true → i.emit.stopped = false → i.emit.reemit = r :: rest →
      exec (.emitRecordSend k) s = .next (s.change k (fun i => (i.reemitRanges r r.firstRange r.rangeCount).pump.freshSend))) ∧
    (i.emit.stopped = true → exec (.emitRecordSend k) s = .next (s.change k id) ∧ exec (.reemitServe k) s = .next (s.change k id)) ∧
    (∀ b, exec (.emitBackpressure k b) s = .next (s.change k (fun i => { i with emit := { i.emit with stopped := b } })))

/-- R230, R231, R326: a re-emit request is queued, raising REEMIT_FULL with the sixty-fourth and waking a sleeping instance; beyond 64 it stays
outside. The request at the head is served range by range: one that is answered sends its record and takes the request on, the last ends it;
one that must wait leaves the request at that range; an empty queue, an instance that does not run and a withheld EMIT leave all as it stands. -/
def Obligations.ReemitQueue : Prop :=
  ∀ (s : State) (k : InstId), s.supply = .on →
    let i := s.seen k
    let queued := fun (r : ReemitReq) (i : Inst) => ({ i with emit := { i.emit with reemit := i.emit.reemit ++ [r] } } : Inst)
    let filled := fun (r : ReemitReq) (i : Inst) => if i.emit.reemit.length = 63 then Inst.event 0x1B01 none [] (queued r i) else queued r i
    (∀ r, i.emit.reemit.length < 63 → i.pw.state ≠ .doze → i.pw.state ≠ .nap →
      exec (.reemitRequest k r) s = .next (s.change k (fun i => queued r i))) ∧
    (∀ r, i.emit.reemit.length = 63 → i.pw.state ≠ .doze → i.pw.state ≠ .nap →
      exec (.reemitRequest k r) s = .next (s.change k (fun i => Inst.event 0x1B01 none [] (queued r i)))) ∧
    (∀ r, i.emit.reemit.length < 64 → (i.pw.state = .doze ∨ i.pw.state = .nap) →
      (i.pw.entering = none → exec (.reemitRequest k r) s = .next (s.change k (fun i =>
        { filled r i with pw := { i.pw with waking := true, request := none } }))) ∧
      (i.pw.entering ≠ none → exec (.reemitRequest k r) s = .next (s.change k (fun i =>
        { filled r i with pw := { i.pw with wakeAfter := true } })))) ∧
    (∀ r, 64 ≤ i.emit.reemit.length → exec (.reemitRequest k r) s = .next (s.change k id)) ∧
    (∀ r rest, i.running = true → i.emit.stopped = false → i.emit.reemit = r :: rest →
      exec (.reemitServe k) s = .next (s.change k (fun i => (i.reemitRanges r r.firstRange r.rangeCount).pump)) ∧
      (∀ j b, r.rangeCount = 1 → i.answerRange r r.firstRange = .answer j b →
        exec (.reemitServe k) s = .next (s.change k (fun _ =>
          let n := j.putRecord b
          ({ n with emit := { n.emit with reemit := n.emit.reemit.drop 1 } } : Inst).pump))) ∧
      (∀ j b, 1 < r.rangeCount → i.answerRange r r.firstRange = .answer j b →
        exec (.reemitServe k) s = .next (s.change k (fun _ => ((j.putRecord b).reemitRanges r (r.firstRange + 1) (r.rangeCount - 1)).pump))) ∧
      (∀ j, 1 ≤ r.rangeCount → i.answerRange r r.firstRange = .waits j →
        exec (.reemitServe k) s = .next (s.change k (fun _ =>
          ({ j with emit := { j.emit with reemit := r :: j.emit.reemit.drop 1 } } : Inst).pump)))) ∧
    ((i.running = false ∨ i.emit.stopped = true ∨ i.emit.reemit = []) → exec (.reemitServe k) s = .next (s.change k id))

/-- R91, R103, R196, R200, R201: the coding queue serves the next holder in turn, its oldest record due to it, read back first where it was
spilled; a preconditioner refresh in progress that the array does not hold back is done, its roots written over the scratch chunks of its tile,
and one that the array holds back is not. -/
def Obligations.CodingServes : Prop :=
  ∀ (s : State) (k : InstId), s.supply = .on →
    let i := s.seen k
    (∀ h r o, i.running = true → roundRobin i.cod.lastHolder i.oweHomes = some h → i.nextOwe h = some (r, o) → r.spillAt = none →
      exec (.codingQueueServe k) s = .next (s.change k (fun i => (i.serveOwe r o).pump))) ∧
    (∀ h r o, i.running = true → roundRobin i.cod.lastHolder i.oweHomes = some h → i.nextOwe h = some (r, o) → (i.readSpilled r).running = true →
      exec (.codingQueueServe k) s = .next (s.change k (fun i => ((i.readSpilled r).serveOwe r o).pump))) ∧
    (roundRobin i.cod.lastHolder i.oweHomes = none → exec (.codingQueueServe k) s = .next (s.change k id)) ∧
    (∀ x layer tile r m, i.image x = some m →
      i.opt.refreshes.find? (fun r => decide (r.ctx = x) && decide (r.layer = layer) && decide (r.tile = tile) && !r.done) = some r →
      i.arrHolds (.refresh x layer tile r.due) = true → exec (.refreshDone k x layer tile) s = .next (s.change k id)) ∧
    (∀ x layer tile r m l b, i.image x = some m → m.layer layer = some l → i.paramBlock x l.paramBlock = some b →
      i.opt.refreshes.find? (fun r => decide (r.ctx = x) && decide (r.layer = layer) && decide (r.tile = tile) && !r.done) = some r →
      i.arrHolds (.refresh x layer tile r.due) = false →
      exec (.refreshDone k x layer tile) s = .next (s.change k (fun i =>
        ((m.blockChunks x layer (pcWords b).scratchCls tile).zip (piecesOf 4096 (bytesOfWords
            ((rootsOf (pcWords b) (m.head.passes == 9) r).1.flatten ++ (rootsOf (pcWords b) (m.head.passes == 9) r).2.flatten)))).foldl
          (fun i p => match i.chunkSlot p.1 with
            | some a => i.writeChunk a p.2 { version := (r.due - (pcWords b).rootLag) % 2 ^ 32, digest := crc64 p.2, attr := 0 }
            | none => i)
          (Inst.refreshTimely r
            { i with opt := { i.opt with refreshes := i.opt.refreshes.map (fun q => if q = r then { q with done := true } else q) } }))))

/-- R257, R258, R264, R269: each operation that arrives whole and in its turn and passes the receiver's checks is applied by its holder's rule
and answered; one whose header holds a code that no operation has is malformed, whatever follows the header. -/
def Obligations.OperationsApplied : Prop :=
  ∀ (s : State) (k : InstId) (h : FabHdr), s.supply = .on →
    let i := s.seen k
    (∀ b p, i.inTurn ⟨h, .delta b p⟩ →
      exec (.deltaXor k h b p) s = .next (s.change k (Inst.applied ⟨h, .delta b p⟩ (fun i => i.holderDelta false h b p)))) ∧
    (∀ b p, i.inTurn ⟨h, .shadow b p⟩ →
      exec (.shadowPut k h b p) s = .next (s.change k (Inst.applied ⟨h, .shadow b p⟩ (fun i => i.holderDelta true h b p)))) ∧
    (∀ b, i.inTurn ⟨h, .commit b⟩ →
      exec (.commit k h b) s = .next (s.change k (Inst.applied ⟨h, .commit b⟩ (fun i =>
        (i.heardFrom h.ctx ((i.chunkOfFrag h.ctx b.stripe b.row b.srcPos).map (fun c => c.q)) (hdrHome h)).holderCommit h b)))) ∧
    (∀ e, i.inTurn ⟨h, .ledgerPut e⟩ →
      exec (.ledgerPut k h e) s = .next (s.change k (Inst.applied ⟨h, .ledgerPut e⟩ (fun i =>
        (i.heardFrom h.ctx (if e.kind = 0 then some e.range else none) (hdrHome h)).ledgerStore h.ctx h.poison e)))) ∧
    (∀ b, i.inTurn ⟨h, .ledgerRetire b⟩ →
      exec (.ledgerRetire k h b) s = .next (s.change k (Inst.applied ⟨h, .ledgerRetire b⟩ (fun i =>
        ((i.ledgerRetire h.ctx b).1.retrySelfPuts, (i.ledgerRetire h.ctx b).2))))) ∧
    (∀ b, i.inTurn ⟨h, .ledgerRead b⟩ →
      exec (.ledgerRead k h b) s = .next (s.change k (Inst.applied ⟨h, .ledgerRead b⟩ (fun i => i.ledgerRead h.ctx b)))) ∧
    (∀ b p, i.inTurn ⟨h, .rebuildPut b p⟩ →
      exec (.rebuildPut k h b p) s = .next (s.change k (Inst.applied ⟨h, .rebuildPut b p⟩ (fun i => i.holderRebuild h b p)))) ∧
    (∀ b, i.inTurn ⟨h, .cutover b⟩ →
      exec (.cutover k h b) s = .next (s.change k (Inst.applied ⟨h, .cutover b⟩ (fun i => i.holderCutover h.ctx b)))) ∧
    (∀ e, i.inTurn ⟨h, .gradForward e⟩ →
      exec (.gradForward k h e) s = .next (s.change k (Inst.applied ⟨h, .gradForward e⟩ (fun i => i.holderForward h e)))) ∧
    (∀ r, i.inTurn ⟨h, .reemitForward r⟩ →
      exec (.reemitForward k h r) s = .next (s.change k (Inst.applied ⟨h, .reemitForward r⟩ (fun i => i.holderReemit { r with ctx := h.ctx })))) ∧
    (∀ d, i.inTurn ⟨h, .degraded d⟩ →
      exec (.degraded k h d) s = .next (s.change k (Inst.applied ⟨h, .degraded d⟩ (fun i => (i.merge h.ctx d (hdrHome h), ansOk 0))))) ∧
    (∀ b : OpBody, i.inTurn ⟨h, .unlisted h.opcode⟩ →
      exec (arrival k ⟨h, b⟩) s = .next (s.change k (Inst.applied ⟨h, .unlisted h.opcode⟩ (fun i => i.malformed h.opcode h)))) ∧
    (∀ b, b.channelReset = false → i.inTurn ⟨h, .handshake b⟩ →
      exec (.mapHandshake k h b) s = .next (s.change k (Inst.applied ⟨h, .handshake b⟩ (fun i => i.applyHandshake h b)))) ∧
    (∀ b j r poison, i.inTurn ⟨h, .fragRead b⟩ →
      ((b.mode = 0 ∧ b.role = 0) ∨ (b.mode = 1 ∧ 1 ≤ b.role ∧ b.role ≤ 3) ∨ (b.mode = 2 ∧ 1 ≤ b.role ∧ b.role ≤ 2)) →
      (i.forgetPartial ⟨h, .fragRead b⟩).holderFrag h.ctx b = (j, some (r, poison)) →
      exec (.fragRead k h b) s = .next (s.change k (fun _ =>
        (((j.answerOp ⟨h, .fragRead b⟩ r poison).drainChan (hdrHome h) 64).checkAllDone.pump))))

/-- R136, R271, R276, R278: a handshake with CHANNEL_RESET acts whatever waits on the channel; another operation without a base is answered INSTANCE_OFF;
a LEDGER_PUT that is cut off applies nothing and is not answered; a sleeping instance keeps up to 64 operations and wakes, and answers further ones
at once, keeping their SEQs, a handshake that resets its channel after the reset; one that is going to, in or returning from OFF answers INSTANCE_OFF; one that starts answers
NOT_READY, after the reset of its channel if the operation is one; a faulted one answers nothing. -/
def Obligations.OperationsAdmitted : Prop :=
  ∀ (s : State) (k : InstId) (o : InOp), s.supply = .on → o.formed →
    let i := s.seen k
    let kept := (i.fab.frontEnd.filter (fun b => !b.refused)).length
    (∀ b, o.body = .handshake b → i.pw.state = .active → b.channelReset = true →
      ((i.forgetPartial o).resetChan (hdrHome o.hdr) b.seqBase).receive o.hdr (.handshake b) = none →
      exec (arrival k o) s = .next (s.change k (fun i =>
        let a := ((i.forgetPartial o).resetChan (hdrHome o.hdr) b.seqBase).applyHandshake o.hdr b
        (a.1.respond o.hdr 0x0C 0 a.2).checkAllDone.pump))) ∧
    (i.pw.state = .active → o.resets = false → o.body.cut = false → (i.chan (hdrHome o.hdr)).inNext = none →
      exec (arrival k o) s = .next (s.change k (fun i =>
        ((i.forgetPartial o).respond o.hdr o.body.code 0 (respOf St.instOff 0 0)).checkAllDone.pump))) ∧
    (i.pw.state = .active → o.body.cut = true →
      exec (arrival k o) s = .next (s.change k (fun i => (i.keepPartial o).checkAllDone.pump)) ∧
      (i.keepPartial o).out = i.out ∧ (i.keepPartial o).mem = i.mem ∧ (i.keepPartial o).fab.chans = i.fab.chans) ∧
    ((i.pw.state = .doze ∨ i.pw.state = .nap) → kept < 64 →
      exec (arrival k o) s = .next (s.change k (fun i =>
        Inst.wakeUp { i with fab := { i.fab with frontEnd := i.fab.frontEnd ++ [⟨o, false⟩] } }))) ∧
    ((i.pw.state = .doze ∨ i.pw.state = .nap) → 64 ≤ kept → o.resets = false →
      exec (arrival k o) s = .next (s.change k (fun i =>
        Inst.respond o.hdr o.body.code 0 (ansRetry 6) { i with fab := { i.fab with frontEnd := i.fab.frontEnd ++ [⟨o, true⟩] } }))) ∧
    (∀ b, (i.pw.state = .doze ∨ i.pw.state = .nap) → 64 ≤ kept → o.body = .handshake b → b.channelReset = true →
      exec (arrival k o) s = .next (s.change k (fun i =>
        let j := i.resetChan (hdrHome o.hdr) b.seqBase
        Inst.respond o.hdr 0x0C 0 (ansRetry 6)
          { j with fab := { j.fab with frontEnd := j.fab.frontEnd.filter (fun q => hdrHome q.op.hdr ≠ hdrHome o.hdr) } }))) ∧
    ((i.pw.state = .goingOff ∨ i.pw.state = .off ∨ i.pw.state = .restoring) →
      exec (arrival k o) s = .next (s.change k (fun i => i.respond o.hdr o.body.code 0 (respOf St.instOff 0 0)))) ∧
    ((i.pw.state = .starting ∨ i.pw.state = .resetting) → o.resets = false →
      exec (arrival k o) s = .next (s.change k (fun i => i.respond o.hdr o.body.code 0 (ansNotReady 1)))) ∧
    (∀ b, (i.pw.state = .starting ∨ i.pw.state = .resetting) → o.body = .handshake b → b.channelReset = true →
      exec (arrival k o) s = .next (s.change k (fun i =>
        (i.resetChan (hdrHome o.hdr) b.seqBase).respond o.hdr 0x0C 0 (ansNotReady 1)))) ∧
    (i.pw.state = .faulted → exec (arrival k o) s = .next (s.change k id))

/-- R269: an operation 64 or more ahead of the next one is dropped and counted; one ahead of a gap that the receiver's checks pass and that finds
space waits, one that finds none is not kept, and one that they refuse is answered at once. -/
def Obligations.SequenceWindow : Prop :=
  ∀ (s : State) (k : InstId) (o : InOp) (n : Nat), s.supply = .on → o.formed → o.body.cut = false →
    let i := s.seen k
    let c := i.chan (hdrHome o.hdr)
    let d := (o.hdr.seq + 2 ^ 32 - n) % 2 ^ 32
    i.pw.state = .active → o.resets = false → c.inNext = some n → c.answered.contains o.hdr.seq = false →
    c.deferred.contains o.hdr.seq = false →
    (64 ≤ d ∧ d < 2 ^ 31 →
      exec (arrival k o) s = .next (s.change k (fun i => ((i.forgetPartial o).count Cnt.fabricSeqDrop 1).checkAllDone.pump))) ∧
    (d < 64 → c.waiting.any (fun w => w.hdr.seq = o.hdr.seq) = false → c.ripe o = false →
      (i.receive o.hdr o.body = none → i.ctxRoom o.hdr.ctx 1 (256 * (1 + o.body.payload.length)) = true →
        exec (arrival k o) s = .next (s.change k (fun i =>
          ((i.forgetPartial o).setChan { c with waiting := c.waiting ++ [o] }).checkAllDone.pump))) ∧
      (i.receive o.hdr o.body = none → i.ctxRoom o.hdr.ctx 1 (256 * (1 + o.body.payload.length)) = false →
        exec (arrival k o) s = .next (s.change k (fun i => ((i.forgetPartial o).poolFail 1).checkAllDone.pump))) ∧
      (∀ r, i.receive o.hdr o.body = some r →
        exec (arrival k o) s = .next (s.change k (fun i => (((i.forgetPartial o).answerOp o r 0).drainChan (hdrHome o.hdr) 64).checkAllDone.pump))))

/-- R264, R273, R274: an answer whose tag names a live entry frees the entry and acts on its operation, if the operation's context is LIVE; one whose tag
names none, and any at an
instance that is off, starting or faulted, is counted late. -/
def Obligations.AnswersMatched : Prop :=
  ∀ (s : State) (k : InstId) (h : FabHdr) (b : RespBody), s.supply = .on →
    let i := s.seen k
    (∀ e, (i.pw.state = .active ∨ i.pw.state = .doze ∨ i.pw.state = .nap ∨ i.pw.state = .goingOff) →
      i.fab.cpl.find (h.tag % 2 ^ 13) = some e → e.gen = h.tag / 2 ^ 13 →
      exec (.response k h b) s = .next (s.change k (fun i =>
        let j : Inst := { i with fab := { i.fab with cpl := i.fab.cpl.del (h.tag % 2 ^ 13) } }
        let n := if b.status ≠ St.instOff && e.op.body.isReset then j.resumeChan e.op.dst e.seq else j
        if (i.ctx e.op.ctx).live then (n.answered e.op b h.poison).checkAllDone.pump else n.pump))) ∧
    (∀ e, (i.pw.state = .active ∨ i.pw.state = .doze ∨ i.pw.state = .nap ∨ i.pw.state = .goingOff) →
      i.fab.cpl.find (h.tag % 2 ^ 13) = some e → e.gen ≠ h.tag / 2 ^ 13 →
      exec (.response k h b) s = .next (s.change k (fun i => i.count Cnt.fabricLateAnswer 1))) ∧
    (i.fab.cpl.find (h.tag % 2 ^ 13) = none →
      exec (.response k h b) s = .next (s.change k (fun i => i.count Cnt.fabricLateAnswer 1))) ∧
    ((i.pw.state = .off ∨ i.pw.state = .restoring ∨ i.pw.state = .starting ∨ i.pw.state = .resetting ∨ i.pw.state = .faulted) →
      exec (.response k h b) s = .next (s.change k (fun i => i.count Cnt.fabricLateAnswer 1)))

/-- R265, R273, R274, R277: the timers of the fabric port. Three retransmissions, then the channel is parked; on a channel that waits already only
its offers are sent again, and another operation goes back to its owner; a parked or waiting channel offers anew; an operation whose RETRY_AFTER has passed goes back to the queue; a join that expires leaves the join set. -/
def Obligations.FabricTimers : Prop :=
  ∀ (s : State) (k : InstId), s.supply = .on →
    let i := s.seen k
    let waits := fun (e : CplEntry) => (i.chan e.op.dst).parked || (i.chan e.op.dst).offWait
    (∀ n e, i.running = true → i.fab.cpl.find n = some e → waits e = true → e.op.body.isReset = false →
      exec (.fabricTimeout k n) s = .next (s.change k (fun i =>
        (Inst.requeue e.op { i with fab := { i.fab with cpl := i.fab.cpl.del n } }).pump))) ∧
    (∀ n e, i.running = true → i.fab.cpl.find n = some e → waits e = true → e.op.body.isReset = true → 3 ≤ e.tries →
      exec (.fabricTimeout k n) s = .next (s.change k (fun i => { i with fab := { i.fab with cpl := i.fab.cpl.del n } }))) ∧
    (∀ n e, i.running = true → i.fab.cpl.find n = some e → (waits e = false ∨ e.op.body.isReset = true) → e.tries < 3 →
      exec (.fabricTimeout k n) s = .next (s.change k (fun i =>
        (Inst.count Cnt.fabricRetransmit 1 { i with fab := { i.fab with cpl := i.fab.cpl.put n { e with tries := e.tries + 1 } } }).putOp e.op e.seq
          (n + 2 ^ 13 * e.gen) true e.version))) ∧
    (∀ n e, i.running = true → i.fab.cpl.find n = some e → 3 ≤ e.tries → (i.chan e.op.dst).parked = false → (i.chan e.op.dst).offWait = false →
      exec (.fabricTimeout k n) s = .next (s.change k (fun i => (i.park e.op.dst).pump))) ∧
    (∀ n, i.fab.cpl.find n = none → exec (.fabricTimeout k n) s = .next (s.change k id)) ∧
    (∀ h, i.running = true → (i.chan h).parked = true → exec (.parkedChannelOffer k h) s = .next (s.change k (Inst.offerAnew h))) ∧
    (∀ h, (i.chan h).parked = false → exec (.parkedChannelOffer k h) s = .next (s.change k id)) ∧
    (∀ h, i.running = true → (i.chan h).offWait = true → exec (.offWaitOffer k h) s = .next (s.change k (Inst.offerAnew h))) ∧
    (∀ h, (i.chan h).offWait = false → exec (.offWaitOffer k h) s = .next (s.change k id)) ∧
    (∀ n o, i.fab.retry.find? (fun o => o.id = n) = some o → (∀ r f c, o.owner ≠ .coding r f c) →
      (o.owner = .offer → i.matched o.ctx o.dst = false) →
      exec (.retryAfterExpiry k n) s = .next (s.change k (fun i =>
        (Inst.requeue o { i with fab := { i.fab with retry := i.fab.retry.filter (fun p => p.id ≠ n) } }).pump))) ∧
    (∀ x h, exec (.joinExpiry k x h) s = .next (s.change k (fun i => { i with fab := { i.fab with joins := i.fab.joins.filter (fun j => j ≠ (x, h)) } })))

/-- R117, R118, R160, R263, R279: the endpoint's notices and the heartbeats. A route notice sets the route; a bandwidth notice of a partner's node
counts towards LINK_RATE; a loss notice declares the armed partners of the node lost and parks its channels; a heartbeat of state FAULTED or of
another epoch, and a silence, declare an armed partner lost. -/
def Obligations.PartnersWatched : Prop :=
  ∀ (s : State) (k : InstId), s.supply = .on →
    let i := s.seen k
    (∀ n d, exec (.routeNotice k n d) s = .next (s.change k (fun i => { i with fab := { i.fab with routes := i.fab.routes.put n (b2n d) } }))) ∧
    (∀ n f, i.partnerNode n = true →
      exec (.bandwidthNotice k n f) s = .next (s.change k (fun i => { i with hb := { i.hb with linkNotices := i.view.time :: i.hb.linkNotices } }))) ∧
    (∀ n f, i.partnerNode n = false → exec (.bandwidthNotice k n f) s = .next (s.change k id)) ∧
    (∀ n, i.watches = true → i.partnerNode n = true →
      exec (.lossNotice k n) s = .next (s.change k (fun i =>
        let j : Inst := { i with hb := { i.hb with linkNotices := i.view.time :: i.hb.linkNotices },
                                 fab := { i.fab with losses := insertNat n i.fab.losses } }
        let d := ((j.hb.partners.filter (fun p => decide (p.home.node = n) && p.armed && !p.lost)).map (fun p => p.home)).foldl
          (fun i h => i.declareLost h 0x02) j
        (((d.fab.chans.filter (fun c => decide (c.peer.node = n))).map (fun c => c.peer)).foldl (fun i h => i.park h) d).pump))) ∧
    (∀ n, i.running = true →
      exec (.lossCleared k n) s = .next (s.change k (fun i =>
        let j : Inst := { i with fab := { i.fab with losses := i.fab.losses.filter (· ≠ n) } }
        ((j.fab.chans.filter (fun c => decide (c.peer.node = n) && c.parked)).map (fun c => c.peer)).foldl (fun i h => i.offerAnew h) j))) ∧
    (∀ b p, i.watches = true → i.hb.partners.find? (fun p => p.home = ⟨b.srcNode, b.home⟩) = some p → p.armed = true → p.lost = false →
      (b.state = 5 →
        exec (.heartbeat k b) s = .next (s.change k (fun i => (Inst.declareLost ⟨b.srcNode, b.home⟩ 0x03
          { i with hb := { i.hb with partners := i.hb.partners.map (fun q => if q.home = ⟨b.srcNode, b.home⟩ then { q with epoch := some b.epoch } else q) } }).pump))) ∧
      (∀ e, b.state ≠ 5 → p.epoch = some e → e ≠ b.epoch →
        exec (.heartbeat k b) s = .next (s.change k (fun i => (Inst.declareLost ⟨b.srcNode, b.home⟩ 0x04
          { i with hb := { i.hb with partners := i.hb.partners.map (fun q => if q.home = ⟨b.srcNode, b.home⟩ then { q with epoch := some b.epoch } else q) } }).pump))) ∧
      (b.state ≠ 5 → (p.epoch = none ∨ p.epoch = some b.epoch) →
        exec (.heartbeat k b) s = .next (s.change k (fun i =>
          { i with hb := { i.hb with partners := i.hb.partners.map (fun q => if q.home = ⟨b.srcNode, b.home⟩ then { q with epoch := some b.epoch } else q) } })))) ∧
    (exec (.heartbeatSend k) s = .next (s.change k (fun i => Inst.sendHeartbeats { i with hb := { i.hb with seq := (i.hb.seq + 1) % 2 ^ 16 } }))) ∧
    (∀ h, i.watches = true → i.hb.partners.any (fun p => decide (p.home = h) && p.armed && !p.lost) = true →
      exec (.silenceTimeout k h) s = .next (s.change k (fun i => (i.declareLost h 0x01).pump))) ∧
    (∀ h, i.hb.partners.any (fun p => decide (p.home = h) && p.armed && !p.lost) = false → exec (.silenceTimeout k h) s = .next (s.change k id))

/-- R82, R127, R128, R131, R132, R200, R201, R243, R244: the jobs of the fault service. A decode whose rows are all settled hands them on; one that
waits for the array, or is parked off it, does not end yet; a roll-forward whose probes are
answered goes on to its next entry; a disagreement is re-read, and at its timeout the pivot is lowered; a source that stays OFF is asked for no
longer; a chunk repair is done by its rule, and a row repair that has its sources writes the row back. -/
def Obligations.FaultServiceJobs : Prop :=
  (∀ (s : State) (k : InstId) (id : Nat) (j : Job), s.supply = .on →
     let i := s.seen k
     i.running = true →
     (i.job id = some j →
       (i.arrHolds (.decode id) = true → exec (.decodeDone k id) s = .next (s.change k (fun i => i)) ∧
         exec (.chunkRepairDone k id) s = .next (s.change k (fun i => i))) ∧
       (j.isDecode = true → j.queued = false → j.phase = 0 → i.arrHolds (.decode id) = false →
         let a := (i.settleRows j.ctx j.rows).1.putJob { j with rows := (i.settleRows j.ctx j.rows).2 }
         ∀ n m, (a.advanceJob id).job id = some n → (a.advanceJob id).image j.ctx = some m →
           n.rows.all (fun r => r.done.isSome || r.failed.isSome) = true →
           exec (.decodeDone k id) s = .next (s.change k (fun _ => ((a.advanceJob id).rowsDone m n).pump))) ∧
       exec (.vectorReread k id) s = .next (s.change k (fun i =>
         (((i.rereadRows j.ctx id j.kind j.rows).1.putJob { j with rows := (i.rereadRows j.ctx id j.kind j.rows).2 }).advanceJob id).pump)) ∧
       exec (.vectorAgreeTimeout k id) s = .next (s.change k (fun i =>
         ((i.putJob { j with rows := j.rows.map (fun r => if (i.rowDisagree j.ctx r).isEmpty then r else
           match i.lowerPivot j.ctx r with | some p => r.without p false | none => r) }).advanceJob id).pump)) ∧
       exec (.offSourceReplan k id) s = .next (s.change k (fun i =>
         ((i.putJob { j with rows := j.rows.map (fun r =>
           if r.done.isSome || r.failed.isSome || r.off.isEmpty || (i.rowAsks j.ctx r).2.2 then r else { r with off := [] }) }).advanceJob id).pump))) ∧
     (∀ x q, (i.ctx x).memb.saturated = false → (i.ctx x).memb.fenced = false →
       i.rollJob x q = some j →
       ∀ n m l r, (i.settleRoll j.id).job j.id = some n → (i.settleRoll j.id).image x = some m → n.standinOf = some (l, r) → n.phase = 3 →
         exec (.rollForward k x q) s = .next (s.change k (fun i => ((i.settleRoll j.id).rollNext m n l r).pump)))) ∧
  (∀ (s : State) (k : InstId) (id : Nat) (j : Job) (r : RowJob), s.supply = .on →
     let i := s.seen k
     i.running = true → i.job id = some j → j.rows = [r] → i.arrHolds (.decode id) = false →
     (∀ slot line scrub, j.kind = .chunkRepair slot line scrub →
       exec (.chunkRepairDone k id) s = .next (s.change k (fun i => (i.chunkRepairStep j r slot line scrub).pump))) ∧
     (∀ slot line, j.kind = .shadowRepair slot line →
       exec (.chunkRepairDone k id) s = .next (s.change k (fun i => (i.shadowRepairStep j r slot line).pump))) ∧
     (∀ f lines check h g, j.kind = .rowRepair f lines check → r.failed = none → i.rowReady j.ctx r = true → i.heldRow j.ctx f = some h →
       i.geomOf j.ctx f.stripe = some g →
       exec (.rowRepairDone k id) s = .next (s.change k (fun i => ((i.rowRepairApply j f lines check r h g.geom).pump).settleChecks))))

/-- R248 to R250, R352, R392: the scrubber. A lap starts at the first chunk slot of a ready instance, with a period shortened by the debt; it scrubs the
next slot, an update being written back meanwhile where one is; once every part is read nothing more is; in OFF it stands still; at its end it is counted and logged; a late lap is announced once, and one forced wakes the instance. -/
def Obligations.ScrubLaps : Prop :=
  ∀ (s : State) (k : InstId), s.supply = .on →
    let i := s.seen k
    (i.pw.ready = true → i.scrub.running = false → (i.pw.state = .active ∨ i.pw.state = .goingOff ∨ i.pw.state = .doze ∨ i.pw.state = .nap) →
      exec (.scrubLapStart k) s = .next (s.change k (fun i =>
        let p := i.reg 0x1D 0x104 0x708 % 2 ^ 17
        { i with scrub := { i.scrub with running := true, began := true, phase := 1, slot := Slot.chunkTable, startT := i.view.time,
                                         periodS := max (p / 2) (p - i.scrub.debt) } }))) ∧
    (i.scrub.running = true → exec (.scrubLapStart k) s = .next (s.change k id)) ∧
    (∀ us wb, (i.upsets us).running = true → (i.upsets us).scrub.running = true →
      let j := i.upsets us
      (∀ p, j.scrub.phase ≠ 0 → j.lapNext j.scrub.phase j.scrub.slot = some p →
        exec (.scrubSlotRead k ⟨us, wb⟩) s = .next (s.change k (fun _ =>
          let n := j.scrubSlot p.2 (if wb then Inst.updateWriteback else id)
          let q := (n.lapNext p.1 (p.2 + 1)).getD (0, p.2 + 1)
          ({ n with scrub := { n.scrub with phase := q.1, slot := q.2 } } : Inst).pump))) ∧
      (j.scrub.phase ≠ 0 → j.lapNext j.scrub.phase j.scrub.slot = none →
        exec (.scrubSlotRead k ⟨us, wb⟩) s = .next (s.change k (fun _ => { j with scrub := { j.scrub with phase := 0 } }))) ∧
      (j.scrub.phase = 0 → exec (.scrubSlotRead k ⟨us, wb⟩) s = .next (s.change k (fun _ => j)))) ∧
    (∀ ms, i.scrub.running = true → i.scrub.phase = 0 → i.pw.state ≠ .off → i.pw.state ≠ .restoring →
      exec (.scrubLapDone k ms) s = .next (s.change k (fun i =>
        (Inst.count Cnt.scrubLaps 1 { i with
          scrub := { i.scrub with running := false, lastMs := ms, late := decide (i.scrub.periodS * 1000 < ms), forced := false,
                                  debt := debtAfter (i.reg 0x1D 0x104 0x708 % 2 ^ 17) i.scrub.debt 0 (ms / 1000) },
          ecc := { i.ecc with corr := [] } }).event 0x1D02 none [(24, 4, ms)]))) ∧
    (i.scrub.running = true → i.scrub.late = false → i.pw.state ≠ .off → i.pw.state ≠ .restoring →
      exec (.lapLate k) s = .next (s.change k (fun i =>
        Inst.event 0x1D01 none [(24, 4, i.scrub.periodS)] { i with scrub := { i.scrub with late := true } }))) ∧
    (i.scrub.running = true → i.scrub.forced = false → i.pw.state ≠ .off → i.pw.state ≠ .restoring →
      exec (.scrubForced k) s = .next (s.change k (fun i =>
        (Inst.event 0x1D03 none [] { i with scrub := { i.scrub with forced := true } }).wakeUp))) ∧
    ((i.scrub.running = false ∨ i.pw.state = .off ∨ i.pw.state = .restoring) → (∀ ms, exec (.scrubLapDone k ms) s = .next (s.change k id)) ∧ exec (.lapLate k) s = .next (s.change k id) ∧
      exec (.scrubForced k) s = .next (s.change k id))

/-- R160, R200, R201, R216, R217, R242, R318, R350, R351, R354: margin samples, self-tests, warnings, the periodic life record, the rebuild of the buffer pool and the end of
an array job. A self-test passes where every CRC-64 of its run at nominal supply is its signature, and its supply steps are the runs that pass
before the first that does not, at most 15; a test and a job the array holds back do not end yet. The array: work of class 1 parks any other, which goes on after it; then the lowest class. -/
def Obligations.HealthTasks : Prop :=
  ∀ (s : State) (k : InstId), s.supply = .on →
    let i := s.seen k
    (∀ t v, i.pw.ready = true → i.arr.sampling = false → (i.pw.state = .active ∨ i.pw.state = .goingOff ∨ i.pw.state = .doze ∨ i.pw.state = .nap) →
      i.reg 0x20 0x140 0xE10 ≠ 0 →
      exec (.marginSample k t v) s = .next (s.change k (fun i =>
        Inst.wakeUp { i with arr := { i.arr with sampling := true, restart := false, lowSupply := true, hbmT := t, hbmV := v,
                                                 marginFrom := i.view.time },
                             out := i.out ++ [.supplyStep false] }))) ∧
    (i.reg 0x20 0x140 0xE10 = 0 → ∀ t v, exec (.marginSample k t v) s = .next (s.change k id)) ∧
    (i.arr.sampling = true → i.arr.restart = true → i.flt.jobs = [] →
      exec (.marginRestart k) s = .next (s.change k (fun i =>
        { i with arr := { i.arr with restart := false, lowSupply := true }, out := i.out ++ [.supplyStep false] }))) ∧
    (∀ r : TestRun, testPasses r = true ↔ ∀ p ∈ r, p.1 = p.2) ∧
    (∀ steps : List TestRun, testSteps steps ≤ 15 ∧ (∀ n, n < testSteps steps → ∃ r, steps[n]? = some r ∧ testPasses r = true) ∧
      (testSteps steps < 15 → ∀ r, steps[testSteps steps]? = some r → testPasses r = false)) ∧
    (i.arrHolds .selfTest = true → ∀ nominal steps, exec (.selfTestDone k nominal steps) s = .next (s.change k id)) ∧
    (∀ nominal steps, i.pw.state = .starting → i.pw.start = .selfTest → i.arrHolds .selfTest = false →
      (testPasses nominal = true → exec (.selfTestDone k nominal steps) s = .next (s.change k (fun i =>
        (Inst.event 0x1A02 none [(20, 1, 1), (21, 1, 0), (22, 1, 1)]
          { i with arr := { i.arr with lastTest := 1 + 2 + 2 ^ 4 * i.arr.steps + 2 ^ 8 } }).becomeReady))) ∧
      (testPasses nominal = false → exec (.selfTestDone k nominal steps) s = .next (s.change k (fun i =>
        (Inst.event 0x1A02 none [(20, 1, 0), (21, 1, 0), (22, 1, 1)]
          { i with arr := { i.arr with lastTest := 2 + 2 ^ 4 * i.arr.steps + 2 ^ 8 } }).selfFault 0x18 0)))) ∧
    (∀ nominal steps, i.pw.state = .active → i.pw.trialTest = true → i.arrHolds .selfTest = false → testPasses nominal = true →
      exec (.selfTestDone k nominal steps) s = .next (s.change k (fun i =>
        let j := Inst.event 0x1A02 none [(20, 1, 1), (21, 1, 0), (22, 1, 2)]
          { i with arr := { i.arr with lastTest := 1 + 2 + 2 ^ 4 * i.arr.steps + 2 ^ 8 * 2 } }
        { j with pw := { j.pw with trialTest := false, trialReady := true } }))) ∧
    (∀ nominal steps, i.pw.state = .active → i.pw.trialTest = false → i.arr.sampling = true → i.arr.restart = false → i.arrHolds .selfTest = false →
      testPasses nominal = true →
      exec (.selfTestDone k nominal steps) s = .next (s.change k (fun i =>
        (Inst.event 0x1A02 none [(20, 1, 1), (21, 1, testSteps steps), (22, 1, 3)]
          { i with arr := { i.arr with lastTest := 1 + 2 + 2 ^ 4 * testSteps steps + 2 ^ 8 * 3 } }).marginDone (testSteps steps)))) ∧
    (exec (.warningEvaluation k) s = .next (s.change k Inst.warnings)) ∧
    (exec (.lifeRecordPeriodic k) s = .next (s.change k (fun i =>
      Inst.lifeTrigger true { i with telem := { i.telem with lifeStart := some (i.telem.lifeStart.getD i.view.time) } }))) ∧
    (i.pool.threaded = true → i.running = true →
      exec (.poolRebuild k) s = .next (s.change k (fun i =>
        let free := (List.range 512).filter (fun b => (i.pool.owned.find b).isNone)
        Inst.event 0x1E01 none [(20, 2, free.length)] { i with pool := { i.pool with free := free, rebuilding := false } }))) ∧
    ((i.pw.state ≠ .off ∧ i.pw.state ≠ .restoring) → exec (.hbmChannelFailure k) s = .next (s.change k (fun i => i.selfFault 0x12 0))) ∧
    (∀ b j, i.arr.jobs.find b = some j → j.work = 2 → i.running = true →
      (i.arrHolds (.submitted b j.serial) = false → exec (.arrayJobDone k b) s = .next (s.change k (fun i =>
        let n := i.fillBuffers j.outA (i.jobOutput j) ((i.jobReads j).any (fun a => i.spanPoison a))
        ((n.setJob b { j with state := 3, reason := 0, work := 0 }).jobEvent b { j with state := 3, reason := 0, work := 0 }).lateReleases b))) ∧
      (i.arrHolds (.submitted b j.serial) = true → exec (.arrayJobDone k b) s = .next (s.change k id))) ∧
    (∀ (cls : ArrWork → Nat) (a : ArrSt),
      (∀ r d, a.run = some r → a.queue.find? (fun w => cls w == 1) = some d → a.parked = none → cls r ≠ 1 →
        (a.dispatch cls).run = some d ∧ (a.dispatch cls).parked = some r ∧ (a.dispatch cls).cells.active = 1 - a.cells.active) ∧
      (∀ p, a.run = none → a.queue.find? (fun w => cls w == 1) = none → a.parked = some p →
        (a.dispatch cls).run = some p ∧ (a.dispatch cls).parked = none ∧ (a.dispatch cls).cells.active = 1 - a.cells.active) ∧
      (∀ w, a.run = none → a.queue.find? (fun w => cls w == 1) = none → a.parked = none → a.queue.find? (fun w => cls w == 2) = some w →
        (a.dispatch cls).run = some w) ∧
      (∀ r, a.run = some r → a.queue.find? (fun w => cls w == 1) = none → (a.dispatch cls).run = some r))

/-- R160: what an evaluation of the warnings measures. The correctable errors of the last 60 intervals, and the notices of the last hour; the window
moves on; the largest measures enter the life record. -/
def Obligations.WarningMeasures : Prop :=
  ∀ (i : Inst),
    let j := i.warnings
    let notes := i.hb.linkNotices.filter (fun t => decide (i.view.time < t + 3600 * aonHz))
    j.memb.eccMeasure = (i.memb.eccWindow.take 60).sum ∧ j.memb.linkMeasure = notes.length ∧
    j.memb.eccWindow = 0 :: i.memb.eccWindow.take 59 ∧ j.hb.linkNotices = notes ∧
    (5 ≤ i.telem.life.mins.length → (j.telem.life.mins.getD 3 0 = max (i.telem.life.mins.getD 3 0) (i.memb.eccWindow.take 60).sum ∧
      j.telem.life.mins.getD 4 0 = max (i.telem.life.mins.getD 4 0) notes.length)) ∧
    (j.pw = i.pw ∧ j.mem = i.mem ∧ j.ctxs = i.ctxs ∧ j.fab = i.fab ∧ j.cod = i.cod)

/-- R323 to R326: sleep. An idle ACTIVE instance asks for DOZE where the policy lets it, a dozing one for NAP; a grant enters the state asked for, a
denial ends the request; at the end of the entry a waiting wake begins. -/
def Obligations.SleepStates : Prop :=
  ∀ (s : State) (k : InstId), s.supply = .on →
    let i := s.seen k
    (i.pw.state = .active → i.pw.request = none → 1 ≤ i.deepest → i.idle = true →
      exec (.dozeAfter k) s = .next (s.change k (fun i =>
        { i with pw := { i.pw with request := some .doze }, out := i.out ++ [.powerRequest 1] }))) ∧
    (i.idle = false → exec (.dozeAfter k) s = .next (s.change k id)) ∧
    (i.pw.state = .doze → i.pw.request = none → i.pw.entering = none → i.pw.waking = false → 2 ≤ i.deepest →
      exec (.napAfter k) s = .next (s.change k (fun i =>
        { i with pw := { i.pw with request := some .nap }, out := i.out ++ [.powerRequest 2] }))) ∧
    (i.deepest < 2 → exec (.napAfter k) s = .next (s.change k id)) ∧
    (∀ p, i.pw.request = some p →
      exec (.powerStateGrant k true) s = .next (s.change k (fun i =>
        { i.accountTime with pw := { i.accountTime.pw with state := p, request := none, entering := some p } })) ∧
      exec (.powerStateGrant k false) s = .next (s.change k (fun i => { i with pw := { i.pw with request := none } }))) ∧
    (i.pw.request = none → ∀ g, exec (.powerStateGrant k g) s = .next (s.change k id)) ∧
    (∀ p, i.pw.entering = some p →
      exec (.sleepEntryDone k) s = .next (s.change k (fun i =>
        Inst.count (if p = PState.nap then Cnt.napEntries else Cnt.dozeEntries) 1
          { i with pw := { i.pw with entering := none, waking := i.pw.wakeAfter, wakeAfter := false } }))) ∧
    (i.pw.entering = none → exec (.sleepEntryDone k) s = .next (s.change k id))

/-- R40, R42, R276, R325, R326, R333: the end of a wake. The accesses held while the instance slept are judged again once it is ACTIVE, then what the front end kept is
taken, then a request for OFF that waited is judged; a wake that does not end leaves the instance FAULTED with cause 0x15, an emergency shutdown
with cause 0x19, and the accesses it held are judged so. -/
def Obligations.WakeEnds : Prop :=
  ∀ (s : State) (k : InstId), s.supply = .on →
    let i := s.seen k
    let woken := fun (i : Inst) => Inst.count Cnt.wakes 1
      { i.accountTime with pw := { i.accountTime.pw with state := .active, waking := false } }
    let timedOut := fun (i : Inst) => (i.selfFault 0x15 0).sleepEnds
    let shut := fun (i : Inst) => (i.selfFault 0x19 0).sleepEnds
    ((i.pw.state = .doze ∨ i.pw.state = .nap) → i.pw.waking = true → s.die.pll = true →
      exec (.wakeDone k) s = .next (((s.change k woken).settled k).change k Inst.afterWake) ∧
      ((s.change k woken).insts[k]).pw.state = .active ∧ ((s.change k woken).insts[k]).pw.waking = false ∧
      (i.ctl.stalled = [] → exec (.wakeDone k) s = .next ((s.change k woken).change k Inst.afterWake))) ∧
    ((∀ j : Inst, j.drainFrontEnd.pw.offFromReq = true → j.afterWake = j.drainFrontEnd.offJudge j.drainFrontEnd.pw.offSpill) ∧
      (∀ j : Inst, j.drainFrontEnd.pw.offFromReq = false → j.afterWake = j.drainFrontEnd.pump)) ∧
    ((i.pw.waking = false ∨ s.die.pll = false ∨ (i.pw.state ≠ .doze ∧ i.pw.state ≠ .nap)) → exec (.wakeDone k) s = .next s) ∧
    (i.pw.waking = true →
      exec (.wakeTimeout k) s = .next ((s.change k timedOut).settled k) ∧
      (i.ctl.stalled = [] → exec (.wakeTimeout k) s = .next (s.change k timedOut)) ∧
      ((s.change k timedOut).insts[k]).pw.state = .faulted ∧
      (i.pw.state ≠ .faulted → ((s.change k timedOut).insts[k]).pw.selfCause = 0x15)) ∧
    (i.pw.waking = false → exec (.wakeTimeout k) s = .next ((s.change k (fun i => i.sleepEnds)).settled k)) ∧
    (exec (.emergencyShutdown k) s = .next ((s.change k shut).settled k) ∧
      (i.ctl.stalled = [] → exec (.emergencyShutdown k) s = .next (s.change k shut)) ∧
      ((s.change k shut).insts[k]).pw.state = .faulted ∧
      (i.pw.state ≠ .faulted → ((s.change k shut).insts[k]).pw.selfCause = 0x19))

/-- R40, R247, R273, R333: a fault an instance finds in itself leaves it FAULTED with that cause, ends what its power unit had begun, drops its outbound
operations and what the front end kept, and clears the staging buffer. -/
def Obligations.SelfFaultState : Prop :=
  ∀ (i : Inst) (cause detail : Nat), i.pw.state ≠ .faulted →
    let j := i.selfFault cause detail
    j.pw.state = .faulted ∧ j.pw.selfCause = cause ∧ j.pw.request = none ∧ j.pw.entering = none ∧ j.pw.waking = false ∧ j.pw.offPhase = .none ∧
    j.fab.cpl = [] ∧ j.fab.outq = [] ∧ j.fab.retry = [] ∧ j.fab.frontEnd = [] ∧ j.fab.chans = i.fab.chans ∧
    j.fab.partials = [] ∧ j.mem.staging = [] ∧ j.mem.stagePoison = [] ∧ j.mem.stack = i.mem.stack ∧ j.mem.valid = i.mem.valid ∧ j.ctxs = i.ctxs ∧ j.ctl.regs = i.ctl.regs

/-- R328: the way to OFF, phase by phase: drain, roll back the open steps, save into the spill area, enter OFF; a return asked for before then follows at
once. -/
def Obligations.OffTransition : Prop :=
  ∀ (s : State) (k : InstId), s.supply = .on →
    let i := s.seen k
    ((i.pw.state = .active ∨ i.pw.state = .faulted) → ∀ b,
      (i.offCode b = 0 → exec (.offRequest k b) s = .next (s.change k (fun i =>
        let j := (Inst.offResult 0 { i with pw := { i.pw with offFromReq := false } }).setPState .goingOff
        ((Inst.refuseBuffered { j with pw := { j.pw with offPhase := .drain, request := none } }).pump)))) ∧
      (i.offCode b ≠ 0 → exec (.offRequest k b) s = .next (s.change k (fun i =>
        Inst.offResult (i.offCode b) { i with pw := { i.pw with offFromReq := false } })))) ∧
    ((i.pw.state = .doze ∨ i.pw.state = .nap) → ∀ b,
      exec (.offRequest k b) s = .next (s.change k (fun i => Inst.wakeUp { i with pw := { i.pw with offFromReq := true, offSpill := b } }))) ∧
    (i.pw.state = .goingOff →
      (i.pw.offPhase = .drain → i.drained = true →
        exec (.offDrainDone k) s = .next (s.change k (fun i => { i with pw := { i.pw with offPhase := .rollback } }))) ∧
      (i.pw.offPhase = .drain →
        exec (.offDrain k) s = .next (s.change k (fun i =>
          let j := (i.offResult 6).setPState .active
          ({ j with pw := { j.pw with offPhase := .none, returnDue := false } } : Inst).pump))) ∧
      (i.pw.offPhase = .rollback →
        exec (.offRollbackDone k) s = .next (s.change k (fun i =>
          { i.rollbackAll i.cod.opens with pw := { (i.rollbackAll i.cod.opens).pw with offPhase := .save } }))) ∧
      (i.pw.offPhase = .save →
        exec (.offSaveDone k) s = .next (s.change k (fun i =>
          let j := (spillBytes :: saveArea 0 :: (i.ctxs.filter (fun c => c.2.live)).map (fun c => saveArea c.1)).foldl
            (fun (i : Inst) (a : Nat × Nat) => i.freshLines a.1 a.2) i
          Inst.lifeTrigger false { j with
            saved := some { ctxs := j.ctxs.map (fun (c : Nat × CtxSt) => (c.1, c.2.saved)), params := j.opt.params, regs := j.ctl.regs },
            mem := { j.mem with spill := some j.mem.valid, preserved := none }, pw := { j.pw with offPhase := .entering } }))) ∧
      (i.pw.offPhase = .entering → i.pw.returnDue = false →
        exec (.offEntered k) s = .next (s.change k (fun i =>
          let j := (i.setPState .off).cleared true
          { j with pw := { j.pw with offPhase := .none, ready := false } }))) ∧
      (i.pw.offPhase = .entering → i.pw.returnDue = true →
        exec (.offEntered k) s = .next (s.change k (fun i =>
          let j := (i.setPState .off).cleared true
          Inst.startReturn { j with pw := { j.pw with offPhase := .none, ready := false } }))))

/-- R217, R329, R333: the return from OFF, phase by phase: asked for, powered with the PLL locked, image delivered
and checked, state restored and checked, self-test, opening; one that does not end leaves the instance FAULTED with cause 0x16. -/
def Obligations.OffReturn : Prop :=
  ∀ (s : State) (k : InstId), s.supply = .on →
    let i := s.seen k
    (i.pw.state = .off →
      exec (.returnRequest k) s = .next (s.change k (fun i =>
        { i.accountTime with pw := { i.accountTime.pw with state := .restoring, offPhase := .power, returnDue := false } }))) ∧
    (i.pw.state = .goingOff → exec (.returnRequest k) s = .next (s.change k (fun i => { i with pw := { i.pw with returnDue := true } }))) ∧
    (i.pw.state ≠ .off → i.pw.state ≠ .goingOff → exec (.returnRequest k) s = .next (s.change k id)) ∧
    (i.pw.state = .restoring → i.pw.offPhase = .power → s.die.pll = true →
      exec (.returnPowerUpDone k) s = .next (s.change k (fun i =>
        Inst.event 0x1002 none [] { i with pw := { i.pw with offPhase := .image }, pool := i.pool.thread }))) ∧
    ((i.pw.state ≠ .restoring ∨ i.pw.offPhase ≠ .power ∨ s.die.pll = false) →
      exec (.returnPowerUpDone k) s = .next (s.change k id)) ∧
    (∀ f m q p, i.pw.state = .restoring → i.pw.offPhase = .image →
      ((i.offerPrograms (packageOk m q p) p).2 = true →
        exec (.imageDelivery k f m q p) s = .next (s.change k (fun i =>
          let j := (i.offerPrograms (packageOk m q p) p).1
          { j with boot := { j.boot with replaced := false }, pw := { j.pw with offPhase := .state } }))) ∧
      ((i.offerPrograms (packageOk m q p) p).2 = false →
        exec (.imageDelivery k f m q p) s = .next (s.change k (fun i => (i.offerPrograms (packageOk m q p) p).1.selfFault 0x17 0)))) ∧
    (∀ nominal steps, i.pw.state = .restoring → i.pw.offPhase = .selfTest → i.arrHolds .selfTest = false →
      (testPasses nominal = true → exec (.selfTestDone k nominal steps) s = .next (s.change k (fun i =>
        (Inst.event 0x1A02 none [(20, 1, 1), (21, 1, 0), (22, 1, 1)]
          { i with arr := { i.arr with lastTest := 1 + 2 + 2 ^ 4 * i.arr.steps + 2 ^ 8 } }).openReturn))) ∧
      (testPasses nominal = false → exec (.selfTestDone k nominal steps) s = .next (s.change k (fun i =>
        (Inst.event 0x1A02 none [(20, 1, 0), (21, 1, 0), (22, 1, 1)]
          { i with arr := { i.arr with lastTest := 2 + 2 ^ 4 * i.arr.steps + 2 ^ 8 } }).selfFault 0x18 0)))) ∧
    (∀ us, ((i.upsets us).pw.state ≠ .restoring ∨ (i.upsets us).pw.offPhase ≠ .state) →
      exec (.returnStateRestored k us) s = .next (s.change k (fun i => i.upsets us))) ∧
    (∀ us, (i.upsets us).pw.state = .restoring → (i.upsets us).pw.offPhase = .state →
      let j := i.upsets us
      let v := j.readSpill (j.mem.spill.getD [])
      let p := j.saved.getD { ctxs := [], params := [], regs := [] }
      let live := (p.ctxs.filter (fun c => c.2.live)).map Prod.fst
      let a := ((saveArea 0 :: live.map saveArea) ++ live.map (fun x => (mapCopySlot x * 4096, 4194304))).foldl
        (fun (a : Inst × Bool) (p : Nat × Nat) => let r := a.1.readSpan false p.1 p.2; (r.1, a.2 && r.2)) (v.1, true)
      (a.2 = true → exec (.returnStateRestored k us) s = .next (s.change k (fun _ =>
        { a.1 with ctxs := p.ctxs, scrub := a.1.scrub.halt a.1.view.time, opt := { a.1.opt with params := p.params }, ctl := { a.1.ctl with regs := p.regs }, saved := none,
                   mem := { a.1.mem with valid := v.2, spill := none }, pw := { a.1.pw with offPhase := .selfTest } }))) ∧
      (a.2 = false → exec (.returnStateRestored k us) s = .next (s.change k (fun _ => a.1.selfFault 0x10 Slot.mapRegion)))) ∧
    (i.pw.state = .restoring → exec (.returnTimeout k) s = .next (s.change k (fun i => i.selfFault 0x16 0)) ∧
      ((s.change k (fun i => i.selfFault 0x16 0)).insts[k]).pw.state = .faulted ∧
      ((s.change k (fun i => i.selfFault 0x16 0)).insts[k]).pw.selfCause = 0x16) ∧
    (i.pw.state ≠ .restoring → exec (.returnTimeout k) s = .next (s.change k id))

/-- R318, R334 to R338: start-up. The PLL's lock ends the Clock phase; a cleared SRAM threads the buffer pool, ends a reset and logs its kind; the image
delivered to an instance that waits for one is chosen by the boot rule and loaded, one delivered to a return is checked, and a new program section
replaces the programs of a running instance. -/
def Obligations.StartUp : Prop :=
  ∀ (s : State) (k : InstId), s.supply = .on →
    let i := s.seen k
    (exec .pllLock s = .next ((s.changeDie (fun d => { d with pll := true })).changeAll (fun i =>
      if i.pw.start = .clock then { i with pw := { i.pw with start := .sram } } else i))) ∧
    (i.pw.start = .sram → (i.pw.state = .starting ∨ i.pw.state = .resetting) →
      exec (.sramClearDone k) s = .next (s.change k (fun i =>
        let j : Inst := { i.accountTime with pw := { i.accountTime.pw with state := .starting, start := .image, resetType := none },
                                             pool := i.pool.thread, mem := { i.mem with valid := [] } }
        match i.pw.resetType with | some n => j.event 0x1001 none [(20, 1, n)] | none => j))) ∧
    (∀ f m q p, i.pw.state = .starting → i.pw.start = .image → (i.decideBoot f).2 = true →
      exec (.imageDelivery k f m q p) s = .next (s.change k (fun i => (i.decideBoot f).1.loadBoot m q p))) ∧
    (∀ f m q p, i.pw.state = .starting → i.pw.start = .image → (i.decideBoot f).2 = false →
      exec (.imageDelivery k f m q p) s = .next (s.change k (fun i => (i.decideBoot f).1))) ∧
    (∀ f m q p, i.pw.state = .restoring → i.pw.offPhase = .image →
      ((i.offerPrograms (packageOk m q p) p).2 = true →
        exec (.imageDelivery k f m q p) s = .next (s.change k (fun i =>
          let j := (i.offerPrograms (packageOk m q p) p).1
          { j with boot := { j.boot with replaced := false }, pw := { j.pw with offPhase := .state } }))) ∧
      ((i.offerPrograms (packageOk m q p) p).2 = false →
        exec (.imageDelivery k f m q p) s = .next (s.change k (fun i => (i.offerPrograms (packageOk m q p) p).1.selfFault 0x17 0)))) ∧
    (∀ m p, (i.pw.state = .active ∨ i.pw.state = .doze ∨ i.pw.state = .nap) →
      exec (.programImageReplace k m p) s = .next (s.change k (fun i =>
        let r := i.offerPrograms (progHashOk m p && decide (manSeqSha m = i.boot.seqSha)) p
        if r.2 then { r.1 with boot := { r.1.boot with replaced := true } } else r.1)))

/-- R321, R330, R332, R333, R342: the resets and the supply. -/
def Obligations.ResetsAndSupply : Prop :=
  ∀ (s : State),
    (s.supply = .on →
      (∀ k, exec (.instanceReset k) s = .next ((s.change k (Inst.reset 0 s.die.pll)).settled k)) ∧
      (exec (.dieWarmReset false) s = .next ((List.finRange 8).foldl (fun s k => s.settled k)
        (((s.changeAll (Inst.reset 1 s.die.pll)).changeAll (fun i => { i with ctl := { i.ctl with locks := [] } })).changeDie Die.warmReset))) ∧
      (exec (.dieWarmReset true) s = .next ((List.finRange 8).foldl (fun s k => s.settled k)
        (((s.changeAll (fun i => i.preserve.reset 2 s.die.pll)).changeAll (fun i => { i with ctl := { i.ctl with locks := [] } })).changeDie
          Die.warmReset))) ∧
      (exec .pllLossOfLock s = .next ((s.changeDie (fun d => { d with pll := false })).changeAll (fun i =>
        if i.clocked then i.selfFault 0x14 0 else i)))) ∧
    (s.supply = .off → exec .diePowerOn s = .next { s with supply := .on }) ∧
    (s.supply ≠ .off →
      exec .diePowerLoss s = .next { s with supply := .off, die := s.die.dark, insts := Vector.ofFn (fun k => Inst.dark k.val s.insts[k]) }) ∧
    (s.supply = .off → exec .diePowerLoss s = .next s ∧ exec .aonClockStop s = .next s) ∧
    (s.supply ≠ .off → exec .aonClockStop s = .next { s with supply := .stopped })

/-- R330, R331: what a reset of an instance leaves. RESETTING, the heartbeat table cleared after a HEARTBEAT of state FAULTED to every partner, EPOCH one
higher; every context FREE, the valid map, the tables and the rings empty, the settings at their reset values; the stack, the mailboxes and the
LOCK bits as they were. -/
def Obligations.ResetKeeps : Prop :=
  ∀ (i : Inst) (kind : Nat) (pll : Bool),
    let j := i.reset kind pll
    j.pw.state = .resetting ∧ j.pw.resetType = some kind ∧ j.pw.ready = false ∧
    j.hb.partners = [] ∧ j.hb.epoch = (i.hb.epoch + 1) % 2 ^ 32 ∧
    j.out = i.out ++ i.hb.partners.map (fun p => i.heartbeatTo 5 p.home) ∧
    (∀ x, (j.ctx x).map.state = 0) ∧ j.mem.valid = [] ∧ j.mem.staging = [] ∧ j.boot.programs = [] ∧
    j.fab.cpl = [] ∧ j.cod.opens = [] ∧ j.cod.backlog = [] ∧ j.ctl.regs = [] ∧ j.ctl.logs = Logs.empty ∧
    j.mem.stack = i.mem.stack ∧ j.mem.check = i.mem.check ∧ j.mbox = i.mbox ∧ j.ctl.locks = i.ctl.locks

/-- R330, R331, R334: the state after reset. The die runs with its time base at zero and its PLL unlocked; every instance starts in its first phase,
not READY, with no context, no partner, an empty valid map, empty tables, empty rings and zero counters; the values the rules do not give (the stack, the
mailboxes) are the model's choice, log entries 4 and 5. -/
def Obligations.ResetState : Prop :=
  State.reset.supply = .on ∧ State.reset.pending = [] ∧ State.reset.die.time = 0 ∧ State.reset.die.pll = false ∧
  State.reset.die.detLock = false ∧ State.reset.die.ctl.locks = [] ∧
  ∀ k : InstId,
    let i := State.reset.insts[k]
    i.pw.state = .starting ∧ i.pw.start = .epoch ∧ i.pw.ready = false ∧ (∀ x, (i.ctx x).map.state = 0) ∧ i.hb.partners = [] ∧
    i.mem.valid = [] ∧ i.mem.stack = [] ∧ i.mem.staging = [] ∧ i.fab.cpl = [] ∧ i.cod.opens = [] ∧ i.cod.backlog = [] ∧
    i.boot.programs = [] ∧ i.ctl.regs = [] ∧ i.ctl.locks = [] ∧ i.ctl.logs = Logs.empty ∧ i.mbox.boxes = [] ∧
    i.telem.cnt.live = [] ∧ i.cmdq.queue = []

/-- R67 to R71, R73, R101, R102, R157, R165, R310: maps. A MAP_LOAD that may start takes its image into the staged map, which is read back; one that finds no space in its share counts the
failure; a commit point with nothing in flight makes a COMMITTING map
the live one, or begins the release it stands for; a rollback that is done lets the context's operations on; a release that is done frees the
context. The reserve is judged again after a commit and a release. -/
def Obligations.MapsChange : Prop :=
  ∀ (s : State) (k : InstId) (x : Nat), s.supply = .on →
    let i := s.seen k
    (∀ d b us, i.startable 0x01 = some d → exec (.mapLoad k ⟨.data b, us⟩) s = .next (s.change k (fun i => i.takeCmd.mapLoaded d b us))) ∧
    (∀ d e us, i.startable 0x01 = some d → d.arg.testBit 0 = false →
      exec (.mapLoad k ⟨.error e, us⟩) s = .next (s.change k (fun i => (i.takeCmd.hostReadError e (d.a64 2)).refuseFree d))) ∧
    (∀ d e us, i.startable 0x01 = some d → d.arg.testBit 0 = true →
      exec (.mapLoad k ⟨.error e, us⟩) s = .next (s.change k (fun i => i.takeCmd.refuseFree d))) ∧
    (i.startable 0x01 = none → ∀ src, exec (.mapLoad k src) s = .next (s.change k (fun i => i.startWait 0x01))) ∧
    (∀ n, i.running = true → (i.ctx x).map.slot = 2 → (i.ctx x).map.staged = some n → i.opt.flights.any (fun f => f.ctx = x) = false →
      (n.release = false → exec (.commitPoint k x) s = .next (s.change k (fun i => (i.commitLive x n).judgeReserve))) ∧
      (n.release = true → exec (.commitPoint k x) s = .next (s.change k (fun i => (i.commitRelease x n).judgeReserve)))) ∧
    (i.running = true → (i.ctx x).memb.rollback = true →
      exec (.rollbackDone k x) s = .next (s.change k (fun i =>
        (((i.rollbackAll (i.cod.opens.filter (fun o => o.ctx = x))).modMemb x (fun m => { m with rollback := false })).settleWaiters).pump))) ∧
    (i.running = true → (i.ctx x).map.state = 2 →
      exec (.releaseDone k x) s = .next (s.change k (fun i =>
        ((i.setCtx x { CtxSt.freeCtx with
          map := { CtxSt.freeCtx.map with staged := (i.ctx x).map.staged, slot := (i.ctx x).map.slot, barred := (i.ctx x).map.barred,
                                          loadResult := (i.ctx x).map.loadResult, commitResult := (i.ctx x).map.commitResult,
                                          preservedUsed := (i.ctx x).map.preservedUsed },
          user := { CtxSt.freeCtx.user with pending := (i.ctx x).user.pending } }).event 0x1104 (some x) []).judgeReserve)))

/-- R52, R331: what the end of a release leaves. The context is FREE, with no image, nothing lost, no step and no armed scalars; other contexts stand. -/
def Obligations.ReleaseFrees : Prop :=
  ∀ (i : Inst) (x : Nat), i.running = true → (i.ctx x).map.state = 2 →
    let j := i.releaseDone x
    (j.ctx x).map.state = 0 ∧ j.image x = none ∧ (j.ctx x).memb.lost = [] ∧ (j.ctx x).run.step = 0 ∧ (j.ctx x).run.halted = [] ∧
    (j.ctx x).user.armed = [] ∧ (∀ y, y ≠ x → j.ctx y = i.ctx y) ∧ j.mem = i.mem ∧ j.opt.params = i.opt.params ∧ j.pw = i.pw

/-- R145, R152 to R154, R305, R306: caravans and cutovers go out, an unsent push first; a precedence window that closes resolves what it gathered. -/
def Obligations.MembershipSends : Prop :=
  ∀ (s : State) (k : InstId), s.supply = .on →
    let i := s.seen k
    (∀ p, i.running = true →
      i.memb.pushes.find? (fun p => !p.sent && i.caravanMay p.chunk.ctx && !isLost (i.ctx p.chunk.ctx).memb.lost p.home) = some p →
      exec (.caravanSend k) s = .next (s.change k (fun i => (i.sendPush p).pump))) ∧
    (∀ mv m, i.running = true →
      i.memb.pushes.find? (fun p => !p.sent && i.caravanMay p.chunk.ctx && !isLost (i.ctx p.chunk.ctx).memb.lost p.home) = none →
      i.nextMoving = some mv → i.image mv.ctx = some m →
      exec (.caravanSend k) s = .next (s.change k (fun i => (i.caravanRange m mv).pump))) ∧
    (∀ x q mv m j rs, i.running = true → i.movingOf x q = some mv → i.image x = some m → i.cutReady m mv = true → i.cutRecs m mv = (j, some rs) →
      exec (.cutoverSend k x q) s = .next (s.change k (fun i =>
        let v := ((rs.head?).map (fun c => c.version)).getD 0
        let b : CutoverBody := { range := q, step := if v = 0 then 0 else extendStep (i.ctx x).run.step v, rangeDigest := rangeDigest rs,
                                 reconstructed := mv.standin.isSome || rs.any (fun c => c.recon) }
        ((j.send mv.dst x 3 (.cutover x q) (.cutover b) 0).modMoving x q
            (fun n => { n with cutSent := true })).pump))) ∧
    (∀ x q mv m, i.movingOf x q = some mv → i.image x = some m → i.cutReady m mv = false →
      exec (.cutoverSend k x q) s = .next (s.change k id)) ∧
    (∀ x l, (i.ctx x).run.window = some l →
      exec (.precedenceWindowClose k x) s = .next (s.change k (fun i =>
        ((i.modRun x (fun r => { r with window := none })).resolve x ((l.map (fun c => cmdRank c.1)).foldl max 0) l []).pump))) ∧
    (∀ x, (i.ctx x).run.window = none → exec (.precedenceWindowClose k x) s = .next (s.change k id))

/-- R280 to R287, R308 to R311: the host commands that read host memory. PARAM_LOAD installs a good block of a context that may take it, and refuses a bad
one; LOAD starts and its chunks go on as their reads complete. -/
def Obligations.HostLoads : Prop :=
  ∀ (s : State) (k : InstId), s.supply = .on →
    let i := s.seen k
    (∀ d bytes, i.startable 0x02 = some d →
      let b := bits d.arg 4 0
      let ws := (piecesOf 4 (slice 0 128 bytes)).map (fun p => w32 (leNat p))
      (paramsOk ws = true → (i.takeCmd.opt.waits.contains (d.ctx, 3, b) = false ∨ (i.takeCmd.ctx d.ctx).run.paused = true) →
        exec (.paramLoad k (.data bytes)) s = .next (s.change k (fun i =>
          (Inst.finishCmd d 0 0 1 { i.takeCmd with opt := { i.takeCmd.opt with params := i.takeCmd.opt.params.put (d.ctx * 32 + b) ws } }).pump))) ∧
      (paramsOk ws = false →
        exec (.paramLoad k (.data bytes)) s = .next (s.change k (fun i => (i.takeCmd.event 0x1904 (some d.ctx) [(20, 1, b)]).refuseFree d)))) ∧
    (∀ d, i.running = true → i.startable 0x03 = some d → d.isCold = false →
      exec (.load k) s = .next (s.change k (fun i =>
        let j := i.takeCmd.runCmd { Running.fresh d with chunks := i.loadChunks d }
        (((j.cmdq.running.filter (fun r => r.descr.op = 3 ∧ r.cold.isNone)).map (fun r => r.serial)).foldl
          (fun (i : Inst) n => i.advanceLoad n) j).pump))) ∧
    (∀ n c r l, i.running = true → i.cmd n = some r → r.chunks[c]? = some l → l.phase = .reading → r.cold = none →
      (∀ b, exec (.pcieReadCompletion k n c (.data b)) s = .next (s.change k (fun i => ((i.loadBytes n l.id b).advanceLoad n).pump))) ∧
      (∀ e, exec (.pcieReadCompletion k n c (.error e)) s = .next (s.change k (fun i =>
        (((i.hostReadError e l.addr).putCmd (r.note l.id 5)).advanceLoad n).pump))))

/-- R236, R252, R253, R310, R391: the host commands that read the engine out. DIGEST_DUMP writes one entry per chunk of a layer's class; COLONY_CHECK checks or rebuilds
its rows; the ECC test writes a line as it is given and reads one back raw, the code of each verdict being a free value (log entry 9). -/
def Obligations.HostChecks : Prop :=
  ∀ (s : State) (k : InstId) (d : Descr), s.supply = .on →
    let i := s.seen k
    (∀ m l c, i.startable 0x04 = some d → i.takeCmd.image d.ctx = some m → m.layer (bits (d.word 1) 30 0 + 2 ^ 31 * bits d.arg 3 3) = some l →
      m.cls (bits d.arg 2 0) = some c →
      exec (.digestDump k) s = .next (s.change k (fun i =>
        let r := i.takeCmd.recsOf (i.takeCmd.servedChunks m d.ctx l c)
        (Inst.finishCmd d 0 0 r.2.length { r.1 with
          out := r.1.out ++ r.2.mapIdx (fun n e => OutEvent.hostWrite (d.a64 2 + 24 * n) (dumpEntry e)) }).pump))) ∧
    (i.startable 0x05 = some d →
      exec (.colonyCheck k) s = .next (s.change k (fun i =>
        let j := (i.checkRows d).foldl (fun (i : Inst) f =>
          if f.role = 1 then i.colonyRow false d.ctx f else i.startRowRepair d.ctx f (List.range 64) true) i.takeCmd
        ((j.runCmd { Running.fresh d with frags := i.checkRows d, items := (i.checkRows d).length }).settleChecks).pump))) ∧
    (∀ b, i.startable 0x07 = some d → i.takeCmd.testRefused d.testSlot = false →
      exec (.eccTestWrite k (.data b)) s = .next (s.change k (fun i =>
        let j := if d.testSlot < i.takeCmd.ledgerBase then i.takeCmd.testOpen d.testSlot else i.takeCmd
        (Inst.count Cnt.eccTestAccesses 1 { j with mem := j.mem.putRaw (64 * d.testSlot + d.testLine) (slice 0 68 b) }).finishCmd d 0 0 1))) ∧
    (i.startable 0x08 = some d → i.takeCmd.testRefused d.testSlot = false →
      exec (.eccTestRead k) s = .next (s.change k (fun i =>
        let b := i.takeCmd.mem.line (64 * d.testSlot + d.testLine)
        ((i.takeCmd.emitOut (.hostWrite (d.a64 2) (b ++ testTail b ++ List.replicate 9 0))).count Cnt.eccTestAccesses 1).finishCmd d 0 0 1))) ∧
    (∀ src, (i.startable 0x07 = some d → i.takeCmd.testRefused d.testSlot = true →
        exec (.eccTestWrite k src) s = .next (s.change k (fun i => i.takeCmd.refuseFree d))) ∧
      (i.startable 0x08 = some d → i.takeCmd.testRefused d.testSlot = true →
        exec (.eccTestRead k) s = .next (s.change k (fun i => i.takeCmd.refuseFree d))))

/-- R288 to R294: the cold tier. A cold load of a context the initiator may use reads the newest image's header first; a cold write whose zones are there gathers
its chunks; the drive's completions take the command at the front one stage on. -/
def Obligations.ColdTier : Prop :=
  ∀ (s : State) (k : InstId), s.supply = .on →
    let i := s.seen k
    (∀ d m, i.running = true → i.startable 0x03 = some d → d.isCold = true → i.takeCmd.view.coldPriv.contains d.ctx = true →
      i.takeCmd.cold.usable = true → i.takeCmd.cold.images.find? (fun m => m.ctx = d.ctx) = some m →
      exec (.coldLoad k) s = .next (s.change k (fun i =>
        let n := i.takeCmd
        let c : ColdRun := { stage := .readHeader, seq := m.seq, step := m.step, chunks := m.chunks, zones := m.zones, pieces := [], next := 0,
                             crc := 0, index := [] }
        let j := (n.runCmd { Running.fresh d with serial := n.cmdq.next, chunks := n.loadChunks d, cold := some c }).readBlocks n.cmdq.next m.zones 0 1
        (((j.cmdq.running.filter Running.readsChunks).map (fun r => r.serial)).foldl
          (fun (i : Inst) n => i.advanceCold n) j).pump))) ∧
    (∀ d, i.running = true → i.startable 0x06 = some d → i.takeCmd.cold.tableSeq ≠ 0 → (i.takeCmd.coldWriteCode d).1 = 0 →
      exec (.coldWrite k) s = .next (s.change k (fun i =>
        let start : ColdRun := { stage := .gather, seq := 0, step := 0, chunks := 0, zones := [], pieces := [], next := 0, crc := 0, index := [] }
        let r : Running := { Running.fresh d with serial := i.takeCmd.cmdq.next, cold := some start }
        ((i.takeCmd.runCmd r).gatherCold r).pump))) ∧
    (∀ n rest r c, i.cold.nvme = n :: rest → n.owner.bind (Inst.cmd { i with cold := { i.cold with nvme := rest } }) = some r → r.cold = some c →
      let j : Inst := { i with cold := { i.cold with nvme := rest } }
      (∀ b, r.descr.op = 6 → n.last = true → exec (.nvmeCompletion k true b) s = .next (s.change k (fun _ => (j.writeStep r c).pump))) ∧
      (∀ b, r.descr.op = 6 → n.last = false → exec (.nvmeCompletion k true b) s = .next (s.change k (fun _ => j.pump))) ∧
      (∀ b, r.descr.op = 6 → exec (.nvmeCompletion k false b) s = .next (s.change k (fun _ => (j.writeFailed r c).pump))) ∧
      (∀ b, r.descr.op ≠ 6 → exec (.nvmeCompletion k true b) s = .next (s.change k (fun _ => (j.readStep r c b).pump))) ∧
      (∀ b, r.descr.op ≠ 6 → exec (.nvmeCompletion k false b) s = .next (s.change k (fun _ => (j.readFailed r c).pump)))) ∧
    (i.cold.nvme = [] → ∀ ok b, exec (.nvmeCompletion k ok b) s = .next (s.change k id))

/-- R302, R360, R369, R377, R380, R386, R390, R391, R393, R395, R397: a write of a selector stores it in the initiator's bank and latches, for that
initiator alone, what it selects as it stands. -/
def Obligations.SelectorsLatch : Prop :=
  ∀ (init : Initiator) (k : InstId) (w : Word) (s : State),
    let b := Initiator.bank init
    let at_ := fun (page off : Nat) (f : Word → Inst → CtlSt → CtlSt) =>
      s.serve k true (fun i => ({ i with ctl := f (masked page off w) i (i.ctl.store b page off (masked page off w)) }, BusRes.done))
    (s.takes init k 0x10 0x14C w → exec (.ringIndex init 0x10 w) s = .next (at_ 0x10 0x14C (fun v i c =>
      c.latchAll b 0x10 0x150 (wordsLe 8 (i.ctl.logs.ring.entries.getD (List.replicate 32 0) (v.toNat % 1024)))))) ∧
    (s.takes init k 0x10 0x184 w → exec (.ologIndex init 0x10 w) s = .next (at_ 0x10 0x184 (fun v i c =>
      c.latchAll b 0x10 0x188 (wordsLe 4 (i.ctl.logs.olog.getD (List.replicate 16 0) (v.toNat % 256)))))) ∧
    (s.takes init k 0x15 0x144 w → exec (.recIndex init w) s = .next (at_ 0x15 0x144 (fun v i c =>
      c.latchAll b 0x15 0x148 (wordsLe 16 (i.flt.records.getD (v.toNat % 16) (List.replicate 64 0)))))) ∧
    (s.takes init k 0x15 0x120 w → exec (.lostView init w) s = .next (at_ 0x15 0x120 (fun v i c =>
      c.latch b 0x15 0x124 (w32 (match (sortLost (i.ctx (bits v.toNat 5 0)).memb.lost)[bits v.toNat 15 8]? with
        | some e => e.home.node % 2 ^ 16 + 2 ^ 16 * (e.home.idx % 2 ^ 8) + 2 ^ 24 * (e.cause % 2 ^ 8) | none => 0))))) ∧
    (s.takes init k 0x17 0x130 w → exec (.chanSel init w) s = .next (at_ 0x17 0x130 (fun v i c =>
      c.latchAll b 0x17 0x134 (match (sortBy (fun (h : Home) => h.node * 256 + h.idx) i.livePeers)[v.toNat % 1024]? with
        | none => List.replicate 5 0
        | some h => [w32 (h.node % 2 ^ 16 + 2 ^ 16 * (h.idx % 2 ^ 8) + 2 ^ 24 + 2 ^ 25 * i.fab.routes.getD 0 h.node + 2 ^ 27 * i.chanState h),
            w32 (i.chan h).outSeq, w32 (i.fab.unanswered h), w32 ((i.chan h).inNext.getD 0), w32 (i.chan h).waiting.length])))) ∧
    (s.takes init k 0x19 0x108 w → exec (.normSel init w) s = .next (at_ 0x19 0x108 (fun v i c =>
      c.latchAll b 0x19 0x10C (match (i.ctx (bits v.toNat 5 0)).run.norms.reverse[bits v.toNat 8 8]? with
        | some n => [lo32 n.1, w32 (n.1 / 2 ^ 32 % 2 ^ 16 + 2 ^ 31), n.2.1, w32 (b2n n.2.2)] | none => [0, 0, 0, 0])))) ∧
    (s.takes init k 0x19 0x124 w → exec (.progSel init w) s = .next (at_ 0x19 0x124 (fun v i c =>
      c.latchAll b 0x19 0x128 (wordsLe 4 (match i.boot.programs[v.toNat % 32]? with | some p => p.head | none => List.replicate 16 0))))) ∧
    (s.takes init k 0x19 0x140 w → exec (.paramSel init w) s = .next (at_ 0x19 0x140 (fun v i c =>
      (c.copyAll b 0x19 0x144 0 ((i.paramBlock (bits v.toNat 5 0) (bits v.toNat 12 8)).getD (List.replicate 32 0))).latch b 0x19 0x148
        (w32 (flagsOf [(0, (i.paramBlock (bits v.toNat 5 0) (bits v.toNat 12 8)).isSome),
          (1, i.opt.waits.contains (bits v.toNat 5 0, 3, bits v.toNat 12 8) && !(i.ctx (bits v.toNat 5 0)).run.paused)]))))) ∧
    (s.takes init k 0x1B 0x10C w → exec (.lastSel init w) s = .next (at_ 0x1B 0x10C (fun _ i c =>
      c.copyAll b 0x1B 0x110 0 (wordsLe 16 i.emit.last)))) ∧
    (s.takes init k 0x1C 0x10C w → exec (.corrSel init w) s = .next (at_ 0x1C 0x10C (fun v i c =>
      c.latch b 0x1C 0x110 (w32 (match i.ecc.corr[v.toNat % 64]? with | some e => lineWord e.1 e.2.1 e.2.2 | none => 0))))) ∧
    (s.takes init k 0x1E 0x13C w → exec (.shareSel init w) s = .next (at_ 0x1E 0x13C (fun v i c =>
      let n := v.toNat % 8
      let used := if n < 6 then i.shareUsed n else 0
      c.latchAll b 0x1E 0x140 [w32 (i.pool.active.getD n 0 + 2 ^ 16 * used),
        w32 ((if n < 6 then i.lentOut n else 0) + 2 ^ 16 * (used - i.pool.active.getD n 0))]))) ∧
    (s.takes init k 0x1E 0x148 w → exec (.bufSel init w) s = .next (at_ 0x1E 0x148 (fun v i c =>
      c.latch b 0x1E 0x14C (w32 (match i.pool.owned.find (v.toNat % 512) with
        | some e => e.share + 2 ^ 3 * e.lentFrom + 2 ^ 8 * (e.ctx.getD 0x3F) + 2 ^ 16 * e.owners.length
        | none => i.homeShare (v.toNat % 512) * 9 + 2 ^ 8 * 0x3F + 2 ^ 31))))) ∧
    (s.takes init k 0x1F 0x124 w → exec (.headSel init w) s = .next (at_ 0x1F 0x124 (fun v i c =>
      c.latchAll b 0x1F 0x128 (match (i.box (bits v.toNat 2 0 + 8 * bits v.toNat 8 8)).head? with
        | some m => m.words ++ List.replicate (8 - m.words.length) 0 ++ [m.stamp] | none => List.replicate 9 0)))) ∧
    (s.takes init k 0x20 0x134 w → exec (.lastIndex init w) s = .next (at_ 0x20 0x134 (fun _ i c =>
      c.copyAll b 0x20 0x138 0 (wordsLe 32 i.telem.lastHead))))

/-- R183, R374: a set of user scalars arms when its effective step has not taken effect: it replaces every armed set not yet in use, the layers that waited for
it go on, and the event says so; a late one sets the late bit and changes nothing else. -/
def Obligations.ScalarsArm : Prop :=
  ∀ (init : Initiator) (k : InstId) (w : Word) (s : State), s.takes init k 0x12 0x148 w →
    let i := s.seen k
    let x := s.die.ctxSel init
    let u := (i.ctx x).user
    (i.scalarsUsed x u.pendStep = false →
      exec (.uscalarArm init w) s = .next (s.serve k true (fun i =>
        let j := i.modUser x (fun u => { u with
          armed := u.armed.filter (fun a => i.scalarsUsed x a.1) ++ [(u.pendStep, u.pending)], late := false })
        let n : Inst := { j with opt := { j.opt with waits := j.opt.waits.filter (fun w => w ≠ (x, 2, 0)) } }
        ((n.eventBy 0x1201 0x12 (some x) (Initiator.bank init) [(24, 4, u.pendStep % 2 ^ 32)]).pump, .done)))) ∧
    (∀ n, (i.ctx x).run.started = some n → u.pendStep ≤ n →
      exec (.uscalarArm init w) s = .next (s.serve k true (fun i =>
        ((i.modUser x (fun u => { u with late := true })).eventBy 0x1202 0x12 (some x) (Initiator.bank init) [(24, 4, u.pendStep % 2 ^ 32)],
          .done)))) ∧
    ((i.ctx x).run.started = none ∨ (∃ n, (i.ctx x).run.started = some n ∧ n < u.pendStep) → i.scalarsUsed x u.pendStep = false)

/-- R316 to R320, R389, R393, R394: the buffer pool. An allocation takes the free buffer at the head of the list for the initiator, or fails with result 0 and a
count; a release frees a buffer its last owner gives up, and is put off while a job of the initiator names it; sizes that fit are applied, and a
minimum that fits is set. -/
def Obligations.PoolCommands : Prop :=
  ∀ (init : Initiator) (k : InstId) (w : Word) (s : State),
    let i := s.seen k
    let b := Initiator.bank init
    let x := s.die.ctxSel init
    (s.takes init k 0x1E 0x114 w → ∀ n rest, i.pool.free = n :: rest → i.pool.threaded = true → i.pool.rebuilding = false → i.initHeld b < 8 →
      i.freeBuffers ≠ 0 → i.shareRoom 5 65536 = true →
      exec (.allocReq init w) s = .next (s.serve k true (fun i =>
        let e : BufEntry := { share := 5, lentFrom := i.lender 5, ctx := none, owners := [.init b], deferred := [] }
        ({ i with pool := { i.pool with free := rest, result := i.pool.result.put b (2 ^ 31 + n), owned := i.pool.owned.put n e } }, .done)))) ∧
    (s.takes init k 0x1E 0x114 w → (i.pool.free = [] ∨ i.pool.threaded = false ∨ i.pool.rebuilding = true ∨ 8 ≤ i.initHeld b ∨
      i.freeBuffers = 0 ∨ i.shareRoom 5 65536 = false) →
      exec (.allocReq init w) s = .next (s.serve k true (fun i =>
        (Inst.count (Cnt.poolFail + 5) 1 { i with pool := { i.pool with result := i.pool.result.put b 0 } }, .done)))) ∧
    (s.takes init k 0x1E 0x11C w →
      let n := (masked 0x1E 0x11C w).toNat % 512
      (∀ e, i.pool.owned.find n = some e → e.owners.contains (.init b) = true → i.jobNames b n = false →
        (e.owners.filter (· ≠ .init b) = [] →
          exec (.release init w) s = .next (s.serve k true (fun i =>
            ({ i with pool := { i.pool with owned := i.pool.owned.del n, free := n :: i.pool.free } }, .done)))) ∧
        (e.owners.filter (· ≠ .init b) ≠ [] →
          exec (.release init w) s = .next (s.serve k true (fun i =>
            let e2 : BufEntry := { e with owners := e.owners.filter (· ≠ .init b), deferred := e.deferred.filter (· ≠ .init b) }
            ({ i with pool := { i.pool with owned := i.pool.owned.put n e2 } }, .done))))) ∧
      (∀ e, i.pool.owned.find n = some e → e.owners.contains (.init b) = true → i.jobNames b n = true →
        exec (.release init w) s = .next (s.serve k true (fun i =>
          let e2 : BufEntry := { e with deferred := e.deferred.filter (· ≠ .init b) ++ [.init b] }
          ({ i with pool := { i.pool with owned := i.pool.owned.put n e2 } }, .done)))) ∧
      (i.pool.owned.find n = none →
        exec (.release init w) s = .next (s.serve k true (fun i =>
          ((i.count Cnt.poolBadRelease 1).eventBy 0x1E04 0x1E none b [(20, 2, n)], .done))))) ∧
    (s.takes init k 0x1E 0x138 w → sizesBad i.pendingSizes i.minSum = 0 → i.ctxs.any (fun c => decide (c.2.map.state ≠ 0)) = false →
      ([0, 1, 2, 3, 4] : List Nat).any (fun s => decide (i.shareUsed s ≠ 0)) = false →
      exec (.sizeApply init w) s = .next (s.serve k true (fun i => ({ i with pool := { i.pool with active := i.pendingSizes } }, .done)))) ∧
    (s.takes init k 0x1E 0x138 w → sizesBad i.pendingSizes i.minSum ≠ 0 →
      exec (.sizeApply init w) s = .next (s.serve k true (fun i =>
        (i.eventBy 0x1E03 0x1E none b [(24, 4, sizesBad i.pendingSizes i.minSum)], .done)))) ∧
    (s.takes init k 0x1E 0x100 w →
      let v := (masked 0x1E 0x100 w).toNat % 64
      v ≤ 32 → i.minSum - (i.ctx x).run.poolMin + v ≤ 192 →
      exec (.ctxMin init w) s = .next (s.serve k true (fun i => (i.modRun x (fun r => { r with poolMin := v }), .done))))

/-- R313, R396: mailboxes. A message of one to eight words is placed whole at the tail of a box of fewer than four, stamped with the box's sequence number, length
and sender, and the sequence number counts on; a full box ends the write in a bus error; a pop by the box's reader takes the head. -/
def Obligations.Mailboxes : Prop :=
  ∀ (init : Initiator) (k : InstId) (w : Word) (s : State),
    let i := s.seen k
    let b := Initiator.bank init
    (s.takes init k 0x1F 0x120 w →
      let n := bits w.toNat 11 8
      let m := bits w.toNat 2 0 + (if b = 2 then 8 else 0)
      w.toNat = bits w.toNat 2 0 + 2 ^ 8 * n → 1 ≤ n → n ≤ 8 →
      ((i.box m).length < 4 →
        exec (.mboxSend init w) s = .next (s.serve k true (fun i =>
          let q := i.mbox.seqs.getD 0 m
          let ws := (List.range n).map (fun k => i.ctl.stored b 0x1F (0x100 + 4 * k))
          let stamp := w32 (2 ^ 24 * q + 2 ^ 20 * n + (if b = 2 then 2 ^ 8 * i.view.idx else 0) + b)
          ({ i with mbox := { boxes := i.mbox.boxes.put m (i.box m ++ [{ words := ws, stamp := stamp }]),
                              seqs := i.mbox.seqs.put m ((q + 1) % 256) } }, .done)))) ∧
      (4 ≤ (i.box m).length → exec (.mboxSend init w) s = .next (s.serve k true (fun i => (i, .error))))) ∧
    (s.takes init k 0x1F 0x14C w →
      let v := masked 0x1F 0x14C w
      let m := bits v.toNat 2 0 + 8 * bits v.toNat 8 8
      mayPop b v.toNat = true →
      (∀ h t, i.box m = h :: t →
        exec (.mboxPop init w) s = .next (s.serve k true (fun i => ({ i with mbox := { i.mbox with boxes := i.mbox.boxes.put m t } }, .done)))) ∧
      (i.box m = [] →
        exec (.mboxPop init w) s = .next (s.serve k true (fun i =>
          (i.eventBy 0x1F01 0x1F none b [(20, 1, bits v.toNat 2 0), (21, 1, bits v.toNat 8 8), (22, 1, 0)], .done)))))

/-- R165, R216, R289, R311, R345 to R347, R375, R382, R389, R398: the other registers whose write has an effect. A JOB_GO whose job passes its
checks queues it for the array, one that does not is refused with its reason, and one while a job is under way with reason 7. -/
def Obligations.RegisterEffects : Prop :=
  ∀ (init : Initiator) (k : InstId) (w : Word) (s : State),
    let i := s.seen k
    let b := Initiator.bank init
    let x := s.die.ctxSel init
    (s.takes init k 0x13 0x120 w → exec (.planFlush init w) s = .next (s.serve k true (fun i =>
      ({ i with cod := { i.cod with plans := (i.cod.plans.filter i.planUsed).map (fun p => { p with doomed := true }) } }, .done)))) ∧
    (s.takes init k 0x20 0x114 w → exec (.freeze init w) s = .next (s.serve k true (fun i =>
      let j := i.noteThrottle
      ({ j with telem := { j.telem with cnt := { j.telem.cnt with freeze := j.telem.cnt.freeze.put b j.telem.cnt.live } } }, .done)))) ∧
    (s.takes init k 0x20 0x110 w →
      let n := bits (i.ctl.stored b 0x20 0x100).toNat 7 0
      let v := (i.ctl.stored b 0x20 0x10C).toNat + 2 ^ 32 * bits (masked 0x20 0x110 w).toNat 23 0
      (counterListed n = true → exec (.cntPresetHi init w false) s = .next (s.serve k true (fun i =>
        ({ i with telem := { i.telem with cnt := { i.telem.cnt with live := i.telem.cnt.live.put n v } } }, .done)))) ∧
      (counterListed n = false → exec (.cntPresetHi init w false) s = .next (s.serve k true (fun i => (i, .done))))) ∧
    (s.takes init k 0x20 0x128 w → exec (.stepSize init w) s = .next (s.serve k true (fun i =>
      let base := (2 ^ 6 * bits (i.ctl.stored 0 0x20 0x120).toNat 30 0 + 2 ^ 37 * bits (i.ctl.stored 0 0x20 0x124).toNat 26 0) / 4096 * 4096
      ({ i with telem := { i.telem with stepBase := base, stepSize := (masked 0x20 0x128 w).toNat % 2 ^ 16, stepHead := 0, stepTail := 0 } },
        .done)))) ∧
    (s.takes init k 0x20 0x12C w →
      let v := (masked 0x20 0x12C w).toNat % 2 ^ 28
      let size := i.telem.stepSize * 4096
      (v < size → (v + size - i.telem.stepTail) % size ≤ (i.telem.stepHead + size - i.telem.stepTail) % size →
        exec (.stepTail init w) s = .next (s.serve k true (fun i => ({ i with telem := { i.telem with stepTail := v } }, .done)))) ∧
      (size ≤ v → exec (.stepTail init w) s = .next (s.serve k true (fun i =>
        (i.eventBy 0xFF03 0x20 none b [(20, 4, (masked 0x20 0x12C w).toNat)], .done))))) ∧
    (s.takes init k 0x18 0x100 w →
      let v := (masked 0x18 0x100 w).toNat &&& 0x1F1F1F
      1 ≤ bits v 4 0 → bits v 4 0 ≤ 16 → 1 ≤ bits v 12 8 → 1 ≤ bits v 20 16 → bits v 12 8 + bits v 20 16 ≤ bits v 4 0 →
      i.ctxs.any (fun c => decide (c.2.map.state ≠ 0) || decide (c.2.map.slot ≠ 0)) = false →
      exec (.sizes init w) s = .next (s.serve k true (fun i => (({ i with ctl := i.ctl.store b 0x18 0x100 (w32 v) } : Inst).judgeReserve, .done)))) ∧
    (s.takes init k 0x10 0x134 w → exec (.cplBaseHi init w) s = .next (s.serve k true (fun i =>
      let base := i.cmdq.base.put b ((masked 0x10 0x134 w).toNat * 2 ^ 32 + (i.ctl.stored b 0x10 0x130).toNat)
      ({ i with ctl := i.ctl.store b 0x10 0x134 (masked 0x10 0x134 w), cmdq := { i.cmdq with base := base } }, .done)))) ∧
    (s.takes init k 0x16 0x018 w → exec (.reserveExhausted init w) s = .next (s.serve k true (fun i =>
      (({ i with ctl := i.ctl.store b 0x16 0x018 (masked 0x16 0x018 w) } : Inst).judgeReserve, .done)))) ∧
    (s.takes init k 0x12 0x118 w →
      let l := i.view.coldPriv
      ((masked 0x12 0x118 w).toNat % 2 = 0 → exec (.coldPriv init w) s = .next (s.serve k true (fun i =>
        ({ i with view := { i.view with coldPriv := l.filter (· ≠ x) } }, .done)))) ∧
      ((masked 0x12 0x118 w).toNat % 2 = 1 → l.contains x = false → l.length < 4 → exec (.coldPriv init w) s = .next (s.serve k true (fun i =>
        ({ i with view := { i.view with coldPriv := insertNat x l } }, .done)))) ∧
      ((masked 0x12 0x118 w).toNat % 2 = 1 → l.contains x = false → 4 ≤ l.length → exec (.coldPriv init w) s = .next (s.serve k true (fun i =>
        (i.eventBy 0x1203 0x12 (some x) b [], .done))))) ∧
    (∀ ps, let p := s.placed init k ps
      let n := p.seen k
      let old := (n.arr.jobs.find b).getD (n.jobWanted b)
      p.takes init k 0x1A 0x110 w →
      (old.work = 0 → n.jobReason b (n.jobWanted b) = 0 →
        exec (.jobGo init ⟨w, ps⟩) s = .next (p.serve k true (fun i => (i.setJob b { i.jobWanted b with state := 1, work := 1 }, .done)))) ∧
      (old.work = 0 → n.jobReason b (n.jobWanted b) ≠ 0 →
        exec (.jobGo init ⟨w, ps⟩) s = .next (p.serve k true (fun i =>
          let j : ArrJob := { i.jobWanted b with state := 4, reason := n.jobReason b (n.jobWanted b) }
          ((i.setJob b j).jobEvent b j, .done)))) ∧
      (old.work ≠ 0 →
        exec (.jobGo init ⟨w, ps⟩) s = .next (p.serve k true (fun i =>
          let j : ArrJob := { old with state := 4, reason := 7 }
          ((i.setJob b j).jobEvent b j, .done)))))

/-- R302, R308, R309, R359: the command queue takes a word, the event ring's tails move within what has been written, and a write of any other listed register is
taken by its page. -/
def Obligations.QueueAndTails : Prop :=
  ∀ (init : Initiator) (k : InstId) (w : Word) (s : State),
    let i := s.seen k
    let b := Initiator.bank init
    (s.takes init k 0x10 0x120 w →
      let v := masked 0x10 0x120 w
      let o := (i.cmdq.asm.find b).getD []
      (v.getLsbD 31 = true →
        let q := ({ i.cmdq with asm := i.cmdq.asm.del b } : CmdQ).orphan b o.length
        (8 ≤ q.free → exec (.cmdqPush init w) s = .next (s.serve k true (fun i => ((Inst.pushInto b [v] { i with cmdq := q }).pump, .done)))) ∧
        (q.free < 8 → exec (.cmdqPush init w) s = .next (s.serve k true (fun i =>
          ((Inst.count Cnt.cmdqFull 1 { i with cmdq := q }).pump, .error))))) ∧
      (v.getLsbD 31 = false → o = [] → exec (.cmdqPush init w) s = .next (s.serve k true (fun i =>
        (Inst.pump { i with cmdq := i.cmdq.orphan b 1 }, .done)))) ∧
      (v.getLsbD 31 = false → o ≠ [] → exec (.cmdqPush init w) s = .next (s.serve k true (fun i => ((i.pushInto b (o ++ [v])).pump, .done))))) ∧
    (s.takes init k 0x10 0x144 w →
      let v := (masked 0x10 0x144 w).toNat % 1024
      let r := i.ctl.logs.ring
      ((v + 1024 - r.mtail) % 1024 ≤ (r.head + 1024 - r.mtail) % 1024 → exec (.ringMtail init 0x10 w) s = .next (s.serve k true (fun i =>
        ({ i with ctl := { i.ctl with logs := { i.ctl.logs with ring := { r with mtail := v } } } }, .done)))) ∧
      ((r.head + 1024 - r.mtail) % 1024 < (v + 1024 - r.mtail) % 1024 → exec (.ringMtail init 0x10 w) s = .next (s.serve k true (fun i =>
        (i.eventBy 0xFF03 0x10 none b [(20, 4, v)], .done))))) ∧
    (s.takes init k 0x10 0x148 w →
      let v := (masked 0x10 0x148 w).toNat % 1024
      let r := i.ctl.logs.ring
      ((v + 1024 - r.htail) % 1024 ≤ (r.head + 1024 - r.htail) % 1024 → exec (.ringHtail init 0x10 w) s = .next (s.serve k true (fun i =>
        ({ i with ctl := { i.ctl with logs := { i.ctl.logs with ring := { r with htail := v } } } }, .done)))) ∧
      ((r.head + 1024 - r.htail) % 1024 < (v + 1024 - r.htail) % 1024 → exec (.ringHtail init 0x10 w) s = .next (s.serve k true (fun i =>
        (i.eventBy 0xFF03 0x10 none b [(20, 4, v)], .done))))) ∧
    (∀ page off, s.takes init k page off w → instPage page = true → off < 0x1000 → off % 4 = 0 → 0x100 ≤ off → ¬ (page = 0x1F ∧ off = 0x120) →
      exec (.registerWrite init (page * 0x1000 + off) 4 w) s = .next (s.serve k true (fun i =>
        i.writeEffect init (s.die.ctxSel init) page off (masked page off w)))) ∧
    (s.takes init k 0x16 0x108 w → exec (.registerWrite init 0x16108 4 w) s = .next (s.serve k true (fun i =>
      ({ i with ctl := i.ctl.store b 0x16 0x108 (masked 0x16 0x108 w) }, .done)))) ∧
    (∀ addr bytes, s.busTo init k → (bytes ≠ 4 ∨ addr % 4 ≠ 0) →
      exec (.registerWrite init addr bytes w) s = .next (s.reply true .error))

/-- R344, R360, R365, R403: reads with an effect. Reading the low register of a pair answers its low word and latches its high word for the initiator that reads; a
data port answers the word its selector's index names and advances the index, wrapping at the end; RX_DATA takes the oldest character. -/
def Obligations.ReadsWithEffect : Prop :=
  (∀ (init : Initiator) (k : InstId) (s : State),
     let i := s.seen k
     let b := Initiator.bank init
     let x := s.die.ctxSel init
     let latched := fun (page off v : Nat) =>
       s.serve k false (fun i => ({ i with ctl := i.ctl.latch b page (off + 4) (hi32 v) }, .value (lo32 v)))
     (s.reads init k 0x12 → exec (.stepLo init) s = .next (latched 0x12 0x104 ((i.ctx x).run.step % 2 ^ 48))) ∧
     (s.reads init k 0x12 → ∀ m, i.image x = some m →
       exec (.baseStepLo init) s = .next (latched 0x12 0x10C (m.head.baseStep % 2 ^ 48))) ∧
     (s.reads init k 0x12 → i.image x = none → exec (.baseStepLo init) s = .next (latched 0x12 0x10C 0)) ∧
     (s.reads init k 0x12 → ∀ a, i.activeSet x = some a →
       exec (.uactiveStepLo init) s = .next (latched 0x12 0x170 (a.1 % 2 ^ 48))) ∧
     (s.reads init k 0x12 → i.activeSet x = none → exec (.uactiveStepLo init) s = .next (latched 0x12 0x170 0)) ∧
     (s.reads init k 0x18 →
       let m := (i.ctx (i.view_ b 0x18 0x118)).memb
       exec (.floorLo init) s = .next (latched 0x18 0x11C ((m.floor.getD 0) % 2 ^ 48 + 2 ^ 63 * (if m.ledgerEmpty then 1 else 0)))) ∧
     (s.reads init k 0x21 → ∀ c, i.cold.images.find? (fun c => c.ctx = i.view_ b 0x21 0x11C) = some c →
       exec (.imageStepLo init) s = .next (latched 0x21 0x128 (c.step % 2 ^ 48))) ∧
     (s.reads init k 0x21 → i.cold.images.find? (fun c => c.ctx = i.view_ b 0x21 0x11C) = none →
       exec (.imageStepLo init) s = .next (latched 0x21 0x128 0)) ∧
     (s.reads init k 0x20 →
       exec (.cntLo init) s = .next (s.serve k false (fun i =>
         let j := i.counted b 0x20 0x104
         ({ j with ctl := j.ctl.latch b 0x20 0x108 (w32 (j.counterOf b / 2 ^ 32)) }, .value (w32 (j.counterOf b % 2 ^ 32)))))) ∧
     (s.busDie init → mayRead init 0x00 = true →
       exec (.timeLo init) s = .next ((s.changeDie (fun d => { d with ctl := d.ctl.latch b 0x00 0x124 (hi32 d.time) })).reply false
         (.value (lo32 s.die.time))))) ∧
  (∀ (init : Initiator) (k : InstId) (s : State),
     let b := Initiator.bank init
     let port := fun (page off sel low n : Nat) => s.serve k false (fun i =>
       let v := (i.ctl.stored b page sel).toNat
       let a := bits v (low + 4) low
       ({ i with ctl := i.ctl.store b page sel (w32 (v - 2 ^ low * a + 2 ^ low * ((a % n + 1) % n))) }, .value (i.ctl.copyWord b page off (a % n))))
     (s.reads init k 0x19 → exec (.paramData init) s = .next (port 0x19 0x144 0x140 16 32)) ∧
     (s.reads init k 0x1B → exec (.emitLastData init) s = .next (port 0x1B 0x110 0x10C 0 16)) ∧
     (s.reads init k 0x20 → exec (.telemLastData init) s = .next (port 0x20 0x138 0x134 0 32)) ∧
     (s.busDie init → mayRead init 0x01 = true →
       let v := (s.die.ctl.stored b 0x01 0x104).toNat
       let staged := (s.insts[instNo (bits v 2 0)]).telem.staged
       exec (.lifeData init) s = .next ((s.changeDie (fun d =>
         { d with ctl := d.ctl.store b 0x01 0x104 (w32 (bits v 2 0 + 2 ^ 4 * ((bits v 13 4 + 1) % 1024))) })).reply false
           (.value (w32 (field (4 * bits v 13 4) 4 staged))))) ∧
     (s.busDie init → mayRead init 0x02 = true → s.die.bridge = false →
       (∀ c t, s.die.uart.rx = c :: t → exec (.rxData init) s = .next ((s.changeDie (fun d => { d with uart := { d.uart with rx := t } })).reply false
         (.value (w32 (c.byte.toNat + 2 ^ 8 * (if c.framing then 1 else 0) + 2 ^ 9 * (if c.brk then 1 else 0) + 2 ^ 31))))) ∧
       (s.die.uart.rx = [] → exec (.rxData init) s = .next (s.reply false (.value 0)))))

/-- R303: writing GUARD_TARGET names a register and ends an open sequence; writing GUARD_A opens one with its value and its time; a sequence left open
past its 64 cycles is discarded with the reason of a timeout, and where none is open nothing happens. -/
def Obligations.GuardSequences : Prop :=
  ∀ (init : Initiator) (k : InstId) (page n : Nat) (w : Word) (s : State), instPage page = true →
    let b := Initiator.bank init
    let i := s.seen k
    (s.busTo init k → exec (.guardTarget init page w) s = .next (s.serve k true (fun i =>
      ({ i with ctl := i.ctl.setGuard b page { target := bits w.toNat 11 0, valueA := none, timeA := 0 } }, .done)))) ∧
    (s.busTo init k → exec (.guardA init page w) s = .next (s.serve k true (fun i =>
      ({ i with ctl := i.ctl.setGuard b page { i.ctl.guard b page with valueA := some w, timeA := i.view.time } }, .done)))) ∧
    (s.supply = .on → instNo n = k →
      (∀ v, (i.ctl.guard b page).valueA = some v → exec (.guardTimeout init page n) s = .next (s.change k (fun i =>
        Inst.guardFault b (s.die.ctxSel init) page (i.ctl.guard b page).target 1 v
          { i with ctl := i.ctl.setGuard b page { i.ctl.guard b page with valueA := none } }))) ∧
      ((i.ctl.guard b page).valueA = none → exec (.guardTimeout init page n) s = .next (s.change k id)))

/-- R303, R307: writing GUARD_B with no sequence open, more than 64 cycles after GUARD_A, with a value that is no complement of GUARD_A's, or for a register that is
not guarded, faults with the reason and changes nothing else. -/
def Obligations.GuardFaults : Prop :=
  ∀ (init : Initiator) (k : InstId) (w : Word) (s : State), s.busTo init k →
    let b := Initiator.bank init
    let g := (s.seen k).ctl.guard b 0x10
    let fault := fun (r : Nat) (v : Word) => s.serve k true (fun i =>
      (Inst.guardFault b (s.die.ctxSel init) 0x10 g.target r v { i with ctl := i.ctl.setGuard b 0x10 { g with valueA := none } }, .done))
    (g.valueA = none → exec (.cmdqFlush init w) s = .next (fault 2 w)) ∧
    (∀ v, g.valueA = some v →
      (g.timeA + 64 < s.die.time → exec (.cmdqFlush init w) s = .next (fault 1 v)) ∧
      (s.die.time ≤ g.timeA + 64 → w ≠ ~~~v → exec (.cmdqFlush init w) s = .next (fault 0 v)) ∧
      (s.die.time ≤ g.timeA + 64 → w = ~~~v → guarded 0x10 g.target = false → exec (.cmdqFlush init w) s = .next (fault 3 v)))

/-- R303, R305, R306: a context command that a guard sequence lets through opens a precedence window or joins the open one. -/
def Obligations.ContextCommands : Prop :=
  ∀ (init : Initiator) (k : InstId) (s : State),
    let b := Initiator.bank init
    let x := s.die.ctxSel init
    let taken := fun (n : Nat) => s.serve k true (fun i =>
      (({ i with ctl := i.ctl.setGuard b 0x12 { i.ctl.guard b 0x12 with valueA := none } } : Inst).modRun x
        (fun r => { r with window := some (r.window.getD [] ++ [(n, b)]) }), .done))
    (s.opens init k 0x12 0x100 1 → exec (.resume init) s = .next (taken 1)) ∧
    (s.opens init k 0x12 0x100 2 → exec (.pause init) s = .next (taken 2)) ∧
    (s.opens init k 0x12 0x100 3 → exec (.evacuate init) s = .next (taken 3)) ∧
    (s.opens init k 0x12 0x100 4 → exec (.evacuateEnd init) s = .next (taken 4)) ∧
    (s.opens init k 0x12 0x100 5 → exec (.offline init) s = .next (taken 5))

/-- R69, R118, R161, R294, R303 to R305, R307, R312: what the instance-wide guarded registers do once the sequence is complete: OFFLINE, the evacuate bit, a flush of the
command queue, an erase of a context's cold image, and the commit of a staged map. -/
def Obligations.GuardedOrders : Prop :=
  ∀ (init : Initiator) (k : InstId) (w v : Word) (s : State), w = ~~~v →
    let b := Initiator.bank init
    let closed := fun (page : Nat) (i : Inst) => ({ i with ctl := i.ctl.setGuard b page { i.ctl.guard b page with valueA := none } } : Inst)
    (s.opens init k 0x10 0x104 1 → exec (.instOffline init) s = .next (s.serve k true (fun i =>
      ((closed 0x10 i).instOffline.order b 0x10 0x104 1 Ord.applied none, .done)))) ∧
    (s.opens init k 0x10 0x108 1 → exec (.instEvacuateSet init) s = .next (s.serve k true (fun i =>
      (Inst.order b 0x10 0x108 1 Ord.applied none { closed 0x10 i with pw := { i.pw with evacuate := true } }, .done)))) ∧
    (s.opens init k 0x10 0x108 0 → exec (.instEvacuateClear init) s = .next (s.serve k true (fun i =>
      (Inst.order b 0x10 0x108 0 Ord.applied none { closed 0x10 i with pw := { i.pw with evacuate := false } }, .done)))) ∧
    (s.opens init k 0x10 0x12C v → exec (.cmdqFlush init w) s = .next (s.serve k true (fun i =>
      (((closed 0x10 i).cmdqFlush b).order b 0x10 0x12C v Ord.applied none, .done)))) ∧
    (s.opens init k 0x21 0x108 v →
      let y := bits v.toNat 5 0
      exec (.coldErase init w) s = .next (s.serve k true (fun i =>
        let r := (closed 0x21 i).coldErase y
        (r.1.order b 0x21 0x108 v (if r.2 then Ord.applied else Ord.refused) (some y), .done)))) ∧
    (s.opens init k 0x11 0x104 v →
      exec (.mapCommit init w) s = .next (s.serve k true (fun i =>
        let j := closed 0x11 i
        let r := Inst.mapCommit b v { j with ctl := j.ctl.store b 0x11 0x104 (v &&& 0xFFFF003F) }
        (r.1.pump.order b 0x11 0x104 v (if r.2 then Ord.applied else Ord.refused) (some (bits v.toNat 5 0)), .done))))

/-- R297, R303, R304, R355, R363, R404: the deterministic-arithmetic lock and the test multiplexer's enable, and the LOCK bits: set-only, frozen once set, the TEST page's
being the production lock. -/
def Obligations.LocksAndDieGuards : Prop :=
  ∀ (init : Initiator) (k : InstId) (page : Nat) (w v : Word) (s : State),
    let b := Initiator.bank init
    let dieOpens := fun (page off : Nat) (v : Word) => s.busDie init ∧
      (∃ t, s.die.ctl.guard b page = { target := off, valueA := some v, timeA := t } ∧ s.die.time ≤ t + 64) ∧ guarded page off = true ∧
        mayWrite init s.die.testLock page off = true
    let closed := fun (page : Nat) (d : Die) => ({ d with ctl := d.ctl.setGuard b page { d.ctl.guard b page with valueA := none } } : Die)
    (dieOpens 0x00 0x108 1 → s.die.detLock = false →
      exec (.detLock init) s = .next ((s.changeDie (fun d =>
        (Die.eventBy 0x0001 0x00 (some b) [] { closed 0x00 d with detLock := true }).order b 0x00 0x108 1 Ord.applied)).reply true .done)) ∧
    (dieOpens 0x00 0x108 1 → s.die.detLock = true →
      exec (.detLock init) s = .next ((s.changeDie (fun d => (closed 0x00 d).order b 0x00 0x108 1 Ord.applied)).reply true .done)) ∧
    (dieOpens 0x03 0x100 v → w = ~~~v → s.die.testLock = false →
      exec (.muxEn init w) s = .next ((s.changeDie (fun d =>
        let e := closed 0x03 d
        (Die.offerPins { e with ctl := e.ctl.store b 0x03 0x100 (v &&& 1) }).order b 0x03 0x100 v Ord.applied)).reply true .done)) ∧
    (s.busTo init k → instPage page = true → mayWrite init s.die.testLock page 0x01C = true →
      ((s.seen k).ctl.locks.contains page = false → exec (.lock init page) s = .next (s.serve k true (fun i =>
        ({ i with ctl := { i.ctl with locks := insertNat page i.ctl.locks } }, .done)))) ∧
      ((s.seen k).ctl.locks.contains page = true → exec (.lock init page) s = .next (s.serve k true (fun i =>
        (i.lockedOut b (s.die.ctxSel init) page 0x01C 1, .done))))) ∧
    (s.busDie init → diePage page = true → page ≠ 0x03 → mayWrite init s.die.testLock page 0x01C = true → s.die.ctl.locks.contains page = false →
      exec (.lock init page) s = .next ((s.changeDie (fun d => { d with ctl := { d.ctl with locks := insertNat page d.ctl.locks } })).reply true .done)) ∧
    (s.busDie init → mayWrite init s.die.testLock 0x03 0x01C = true → s.die.ctl.locks.contains 0x03 = false →
      exec (.lock init 0x03) s = .next (((s.changeDie (fun d =>
        ((Die.eventBy 0x0301 0x03 (some b) [(20, 1, b)]
          { d with ctl := { d.ctl.store 0 0x03 0x100 0 with locks := insertNat 0x03 d.ctl.locks } }).offerPins))).changeAll
            (fun i => { i with ctl := i.ctl.store 0 0x1C 0x018 0 })).reply true .done))

/-- R330, R354, R355, R357, R358, R365, R403, R404: the registers of the die-wide pages whose write has an effect: an acknowledgement of a staged life record goes to its
instance, an epoch is taken during the Epoch phase, a character enters the transmit FIFO while it has room, BRIDGE hands the UART over with its FIFOs and
frame emptied, and the multiplexer's selection drives the pins it owns. -/
def Obligations.DieRegisters : Prop :=
  ∀ (init : Initiator) (k : InstId) (w : Word) (s : State),
    let b := Initiator.bank init
    (s.dieTakes init 0x01 0x10C w →
      exec (.lifeAck init w) s = .next (((s.changeDie (fun d => { d with ctl := d.ctl.store b 0x01 0x10C (masked 0x01 0x10C w) })).change
        (instNo (bits (masked 0x01 0x10C w).toNat 2 0)) (Inst.lifeAck (bits (masked 0x01 0x10C w).toNat 31 8))).reply true .done)) ∧
    (s.dieTakes init 0x01 (0x110 + 4 * k.val) w →
      let v := masked 0x01 (0x110 + 4 * k.val) w
      ((s.insts[k]).pw.start = .epoch →
        exec (.epoch init k w) s = .next (((s.change k (Inst.setEpoch s.die.pll v)).changeDie
          (Die.eventBy 0x0102 0x01 (some b) [(20, 1, k.val), (24, 4, (v.toNat + 1) % 2 ^ 32)])).reply true .done)) ∧
      ((s.insts[k]).pw.start ≠ .epoch →
        exec (.epoch init k w) s = .next ((s.changeDie (Die.ignored b 0x01 (0x110 + 4 * k.val) v)).reply true .done))) ∧
    (s.dieTakes init 0x02 0x104 w →
      let c := (masked 0x02 0x104 w).toNat
      (s.die.bridge = false → s.die.uart.tx.length < 16 → exec (.txData init w) s = .next ((s.changeDie (fun d =>
        { d with uart := { d.uart with tx := d.uart.tx ++ [BitVec.ofNat 8 c] } })).reply true .done)) ∧
      (s.die.bridge = true ∨ 16 ≤ s.die.uart.tx.length → exec (.txData init w) s = .next ((s.changeDie
        (Die.eventBy 0x0202 0x02 (some b) [(20, 1, c % 256)])).reply true .done))) ∧
    (s.dieTakes init 0x02 0x018 w →
      let v := masked 0x02 0x018 w
      let e := { s.die with ctl := s.die.ctl.store b 0x02 0x018 v }
      (v.toNat % 2 ^ 16 = 0 → exec (.muartCtl init w) s = .next ((s.changeDie (Die.ignored b 0x02 0x018 v)).reply true .done)) ∧
      (v.toNat % 2 ^ 16 ≠ 0 → e.bridge = s.die.bridge → exec (.muartCtl init w) s = .next ((s.changeDie (fun _ => e)).reply true .done)) ∧
      (v.toNat % 2 ^ 16 ≠ 0 → e.bridge ≠ s.die.bridge → exec (.muartCtl init w) s = .next ((s.changeDie (fun _ =>
        { e with uart := { e.uart with rx := [], tx := [], frame := [], waiting := false } })).reply true .done))) ∧
    (s.dieTakes init 0x03 0x104 w →
      let e := { s.die with ctl := s.die.ctl.store b 0x03 0x104 (masked 0x03 0x104 w) }
      (s.die.pins.muxOwns = true → s.die.pins.switching = false →
        exec (.muxSel init w) s = .next ((s.changeDie (fun _ => e.drive s.insts)).reply true .done)) ∧
      (s.die.pins.muxOwns = false ∨ s.die.pins.switching = true →
        exec (.muxSel init w) s = .next ((s.changeDie (fun _ => e)).reply true .done)))

/-- R356 to R358, R403, R405: the pins and the UART. A hand-over that runs gives the pins to the side the multiplexer's enable names; a character received by the UART
that owns them enters a FIFO of 16 or counts as an overrun, or goes to the bridge; the transmitter sends its oldest character while it owns them. -/
def Obligations.PinsAndUart : Prop :=
  ∀ (c : Byte) (stop : Bool) (s : State), s.supply = .on →
    (s.die.pins.switching = false → exec .pinHandover s = .next s) ∧
    (s.die.pins.switching = true → s.die.muxEn ≠ s.die.pins.muxOwns → exec .pinHandover s = .next (s.changeDie (fun d =>
      (Die.event 0x0302 [(20, 1, if d.muxEn then 1 else 0)] { d with pins := { muxOwns := d.muxEn, switching := false } }).drive s.insts))) ∧
    (s.die.pins.switching = true → s.die.muxEn = s.die.pins.muxOwns → exec .pinHandover s = .next (s.changeDie (fun d =>
      Die.drive s.insts { d with pins := { muxOwns := d.muxEn, switching := false } }))) ∧
    (s.die.uartOwns = false → exec (.uartReceive c stop) s = .next s ∧ exec .uartTransmit s = .next s) ∧
    (s.die.uartOwns = true →
      let x : RxChar := { byte := c, framing := !stop, brk := !stop && c == 0 }
      (s.die.bridge = false → s.die.uart.rx.length < 16 → exec (.uartReceive c stop) s = .next (s.changeDie (fun d =>
        { d with uart := { d.uart with rx := d.uart.rx ++ [x] } }))) ∧
      (s.die.bridge = false → 16 ≤ s.die.uart.rx.length → exec (.uartReceive c stop) s = .next (s.changeDie (fun d =>
        { d with uart := { d.uart with overruns := d.uart.overruns + 1 } }))) ∧
      (s.die.bridge = true → s.die.uart.waiting = false → frameWhole s.die.uart.frame = false →
        exec (.uartReceive c stop) s = .next (s.changeDie (fun d => d.bridgeByte x))) ∧
      (∀ h t, s.die.uart.tx = h :: t → exec .uartTransmit s = .next (s.changeDie (fun d =>
        Die.emitOut (.uart h) { d with uart := { d.uart with tx := t } }))) ∧
      (s.die.uart.tx = [] → exec .uartTransmit s = .next s))

/-- R358: the register bridge. A whole frame performs its access as DBG and answers; a frame in progress that times out is discarded. -/
def Obligations.BridgeFrames : Prop :=
  ∀ (k : InstId) (s : State), s.die.bridge = true → s.die.uart.waiting = false →
    let a := field 1 3 s.die.uart.frame
    let w := w32 (field 4 4 s.die.uart.frame)
    let page := a / 0x1000
    let off := a % 0x1000
    let x := s.die.ctxSel .dbg
    let served := fun (write : Bool) (r : Inst × BusRes) =>
      ({ s with die := Die.bridgeEnd write r.2 { s.die.lifeNotice k.val s.insts[k] r.1.arrange with coldPriv := r.1.view.coldPriv },
                insts := s.insts.set k r.1.arrange } : State)
    (s.busDie .dbg → frameDone 0x52 s.die.uart.frame = true → a % 4 = 0 → diePage page = true →
      exec .bridgeRead s = .next (s.changeDie (fun d => (d.readEffect 3 page off).bridgeEnd false (.value (d.readReg 3 page off s.insts))))) ∧
    (s.busTo .dbg k → frameDone 0x52 s.die.uart.frame = true → a % 4 = 0 → instPage page = true →
      let i := (s.seen k).counted 3 page off
      exec .bridgeRead s = .next (served false (i.readEffect 3 x page off, .value (i.readReg 3 x page off)))) ∧
    (s.busTo .dbg k → frameDone 0x57 s.die.uart.frame = true → a % 4 = 0 → instPage page = true →
      allowed .dbg s.die.testLock page off true = true → (∀ w, ((s.seen k).writeReg .dbg x page off w).2 ≠ .stalled) →
      exec .bridgeWrite s = .next (served true ((s.seen k).writeReg .dbg x page off w))) ∧
    (s.busDie .dbg → frameDone 0x57 s.die.uart.frame = true → a % 4 = 0 → diePage page = true →
      allowed .dbg s.die.testLock page off true = false →
      exec .bridgeWrite s = .next (s.changeDie (fun d => (d.refuse 3 page off w).bridgeEnd true .refused))) ∧
    (s.busDie .dbg → ∀ op, (op = 0x52 ∨ op = 0x57) → frameDone op s.die.uart.frame = true → a % 4 ≠ 0 →
      exec (if op = 0x52 then .bridgeRead else .bridgeWrite) s = .next (s.changeDie (fun d => d.bridgeEnd (op == 0x57) .error))) ∧
    (s.supply = .on → s.die.uart.frame ≠ [] → frameWhole s.die.uart.frame = false →
      exec .bridgeFrameTimeout s = .next (s.changeDie (fun d => d.bridgeDiscard 4)))

/-- The queue of the block: a step takes the command at the front and carries it out with the rest waiting; on an empty queue one AON cycle passes, which
moves the time base of a running die and nothing else (the model's choice, log entry 2; R41, R117). -/
def Obligations.StepRunsFrontCommand : Prop :=
  (∀ (c : Instr) (s : State), step { s with pending := c :: s.pending } = exec c s) ∧
  (∀ s : State, s.pending = [] → s.supply = .on →
    step s = .next { s with die := { s.die with time := (s.die.time + 1) % 2 ^ 64 } }) ∧
  (∀ s : State, s.pending = [] → s.supply ≠ .on → step s = .next s)

/-- R321, R342: of the commands that do not switch the supply, a running die answers each, an unpowered one changes nothing at any, and a stopped engine faults at each
(what a stopped clock leaves is the model's choice, log entry 18); so a queue of them is carried out on a running die in as many steps as it has commands. -/
def Obligations.QueueDrains : Prop :=
  (∀ (c : Instr) (s : State), ofSupply c = false →
    (s.supply = .on → ∃ t, exec c s = .next t ∧ t.supply = .on ∧ t.pending = s.pending) ∧
    (s.supply = .off → exec c s = .next s) ∧
    (s.supply = .stopped → exec c s = .fault .engineStopped)) ∧
  (∀ s : State, s.supply = .on → s.pending.all (fun c => !ofSupply c) = true →
    ∃ run : Nat → State, run 0 = s ∧ (∀ n, n < s.pending.length → step (run n) = .next (run (n + 1))) ∧
      (run s.pending.length).pending = [] ∧ (run s.pending.length).supply = .on)

/-- R35, R38: a command to one instance leaves every other instance as it stands, whatever the command and whatever state that instance is in. -/
def Obligations.OtherInstancesStand : Prop :=
  ∀ (c : Instr) (k j : InstId) (s t : State), instOf c = some k → j ≠ k → exec c s = .next t → t.insts[j] = s.insts[j]

/-- R331, R342: an unpowered die holds only what outlasts its supply, and every step keeps it so. -/
def Obligations.DarkWhenOffKept : Prop := ∀ s t : State, s.darkWhenOff → step s = .next t → t.darkWhenOff

/-- R331: the invariant holds after reset, and a loss of power brings the die into such a state. -/
def Obligations.DarkAtReset : Prop :=
  State.reset.darkWhenOff ∧ ∀ s : State, s.supply ≠ .off → ∃ t, exec .diePowerLoss s = .next t ∧ t.supply = .off ∧ t.darkWhenOff

/-- The memories of an instance (R60, R61; their form is the model's): a write and an erase keep the canonical form, a read after a write gives what was written, erased
bytes read as zero, and every byte outside the written or erased ones reads as before. -/
def Obligations.MemoryCells : Prop :=
  ∀ (a n : Nat) (b : Bytes) (m : Memory), m.wf = true →
    (m.write a b).wf = true ∧ (m.erase a n).wf = true ∧
    (m.write a b).readN a b.length = b ∧ (m.erase a n).readN a n = List.replicate n 0 ∧
    (∀ x, x < a ∨ a + b.length ≤ x → (m.write a b).read x = m.read x) ∧
    (∀ x, x < a ∨ a + n ≤ x → (m.erase a n).read x = m.read x) ∧
    (∀ x, m.readN x 1 = [m.read x])

/-- R74: the coding arithmetic: addition is bitwise XOR, the product is the carry-less product reduced modulo 0x11D (additive in each operand, 1 its identity, a factor 2
a shift that folds the top bit back), the inverse is the 254th power, and 0x02 is primitive with the powers listed. -/
def Obligations.FieldArithmetic : Prop :=
  let pow := fun (a : Byte) (n : Nat) => Nat.repeat (gfMul a) n 1
  (∀ a b c : Byte, gfMul (a ^^^ b) c = gfMul a c ^^^ gfMul b c ∧ gfMul a (b ^^^ c) = gfMul a b ^^^ gfMul a c) ∧
  (∀ a : Byte, gfMul 1 a = a ∧ gfMul 0 a = 0 ∧ gfMul a 0 = 0) ∧
  (∀ a : Byte, gfMul 2 a = if a.msb then (a <<< 1) ^^^ 0x1D else a <<< 1) ∧
  (∀ a b : Byte, gfMul (gfMul 2 a) b = gfMul 2 (gfMul a b)) ∧
  (∀ a : Byte, gfInv a = pow a 254) ∧ (∀ a : Byte, a ≠ 0 → gfMul a (gfInv a) = 1) ∧
  (∀ a : Byte, a ≠ 0 → ∃ n, n ≤ 254 ∧ pow 2 n = a ∧ ∀ m, m ≤ 254 → pow 2 m = a → m = n) ∧
  pow 2 8 = 0x1D ∧ pow 2 40 = 0x6A ∧ pow 2 44 = 0xEE ∧ pow 2 57 = 0xBA ∧ pow 2 73 = 0xCA ∧ pow 2 77 = 0x3C ∧
  pow 2 88 = 0xFE ∧ pow 2 173 = 0xF6 ∧ pow 2 175 = 0xFF ∧ pow 2 188 = 0xA5 ∧ pow 2 230 = 0xF4 ∧ pow 2 254 = 0x8E

/-- R98: step versions are compared modulo 2^32; a version is newer where the difference lies in 1 to 2^31 − 1; PREV_VERSION matches a committed entry
when it equals its version and FIRST is clear, and one that is not committed only with FIRST set. -/
def Obligations.VersionOrder : Prop :=
  (∀ a b : Nat, a < 2 ^ 32 → b < 2 ^ 32 → (newer a b = true ↔ 1 ≤ ((a : Int) - b) % 2 ^ 32 ∧ ((a : Int) - b) % 2 ^ 32 ≤ 2 ^ 31 - 1)) ∧
  (∀ (e : VecEntry) (prev : Nat) (first : Bool),
    (e.committed = true → (prevMatches e prev first = true ↔ prev = e.version ∧ first = false)) ∧
    (e.committed = false → (prevMatches e prev first = true ↔ first = true)))

/-- R234: every digest is CRC-64/ECMA-182: the register starts at 0, takes each byte in ascending order at its top, most significant bit first, and is not inverted at the
end; the check value is the one given, zeros digest to 0, and a digest that is digested enters as eight bytes, little-endian. -/
def Obligations.DigestParameters : Prop :=
  let shift := fun (c : BitVec 64) => if c.getLsbD 63 then (c <<< 1) ^^^ 0x42F0E1EBA9EA3693 else c <<< 1
  crc64 [] = 0 ∧
  (∀ (b : Bytes) (x : Byte), crc64 (b ++ [x]) = Nat.repeat shift 8 (crc64 b ^^^ (x.setWidth 64 <<< 56))) ∧
  crc64 [0x31, 0x32, 0x33, 0x34, 0x35, 0x36, 0x37, 0x38, 0x39] = 0x6C40DF5F0B497347 ∧
  (∀ n, crc64 (List.replicate n 0) = 0) ∧
  (∀ rs, rangeDigest rs = crc64 ((rs.map (fun r => natLe 8 r.digest.toNat)).flatten))

/-- R79: the coefficients the code's construction gives, at the values listed. -/
def Obligations.CodeCoefficients : Prop :=
  ([1, 2, 3, 4].map (fun j => coef j 0) = [0x7F, 0xE2, 0x80, 0xC8]) ∧ ([1, 2, 3, 4].map (fun j => coef j 1) = [0xFC, 0xFF, 0x1D, 0x86]) ∧
  ([1, 2].map (fun j => coef j 9) = [0xC8, 0x07]) ∧ ([1, 2].map (fun j => coef j 10) = [0x02, 0x8E]) ∧
  ([1, 2].map (fun j => coef j 11) = [0x8E, 0xBA]) ∧ ([1, 2].map (fun j => coef j 17) = [0x6B, 0xDB]) ∧
  ([1, 2].map (fun j => coef j 23) = [0x75, 0xFA])
end

