-- ==== Sys2Proof/Laws/State.lean ====
section
/-! SUPPORT. What the updates of the state leave of each of its fields, and how a command reaches the die and its instances. -/

namespace Sys2Proof.Machine

/-! ### The parts of a state after a change -/

section Change

variable (k : InstId) (f : Inst → Inst) (g : Die → Die) (s : State)

@[simp] theorem State.change_supply : (s.change k f).supply = s.supply := rfl
@[simp] theorem State.change_pending : (s.change k f).pending = s.pending := rfl
@[simp] theorem State.change_insts : (s.change k f).insts = s.insts.set k (f (s.seen k)).arrange := rfl
@[simp] theorem State.change_die : (s.change k f).die = s.die.lifeNotice k.val s.insts[k] (f (s.seen k)).arrange := rfl
@[simp] theorem State.changeDie_supply : (s.changeDie g).supply = s.supply := rfl
@[simp] theorem State.changeDie_pending : (s.changeDie g).pending = s.pending := rfl
@[simp] theorem State.changeDie_insts : (s.changeDie g).insts = s.insts := rfl
@[simp] theorem State.changeDie_die : (s.changeDie g).die = g s.die := rfl
@[simp] theorem State.reply_insts (w : Bool) (r : BusRes) : (s.reply w r).insts = s.insts := rfl
@[simp] theorem State.reply_supply (w : Bool) (r : BusRes) : (s.reply w r).supply = s.supply := rfl
@[simp] theorem State.reply_pending (w : Bool) (r : BusRes) : (s.reply w r).pending = s.pending := rfl
@[simp] theorem State.tick_pending : s.tick.pending = s.pending := by unfold State.tick; split <;> rfl
@[simp] theorem State.tick_supply : s.tick.supply = s.supply := by
  unfold State.tick; split <;> rfl
@[simp] theorem State.tick_insts : s.tick.insts = s.insts := by unfold State.tick; split <;> rfl

theorem State.change_same : (s.change k f).insts[k] = (f (s.seen k)).arrange := by simp
theorem State.change_other (j : InstId) (h : j ≠ k) : (s.change k f).insts[j] = s.insts[j] := by
  have : k.val ≠ j.val := fun e => h (Fin.ext e.symm)
  simp [Vector.getElem_set_ne, this]

end Change

/-! ### The array turning to its work leaves the rest of an instance -/

section Arrange

variable (i : Inst)

@[simp] theorem Inst.arrange_view : i.arrange.view = i.view := rfl
@[simp] theorem Inst.arrange_pw : i.arrange.pw = i.pw := rfl
@[simp] theorem Inst.arrange_boot : i.arrange.boot = i.boot := rfl
@[simp] theorem Inst.arrange_ctl : i.arrange.ctl = i.ctl := rfl
@[simp] theorem Inst.arrange_cmdq : i.arrange.cmdq = i.cmdq := rfl
@[simp] theorem Inst.arrange_mbox : i.arrange.mbox = i.mbox := rfl
@[simp] theorem Inst.arrange_pool : i.arrange.pool = i.pool := rfl
@[simp] theorem Inst.arrange_fab : i.arrange.fab = i.fab := rfl
@[simp] theorem Inst.arrange_hb : i.arrange.hb = i.hb := rfl
@[simp] theorem Inst.arrange_ctxs : i.arrange.ctxs = i.ctxs := rfl
@[simp] theorem Inst.arrange_opt : i.arrange.opt = i.opt := rfl
@[simp] theorem Inst.arrange_cod : i.arrange.cod = i.cod := rfl
@[simp] theorem Inst.arrange_emit : i.arrange.emit = i.emit := rfl
@[simp] theorem Inst.arrange_flt : i.arrange.flt = i.flt := rfl
@[simp] theorem Inst.arrange_memb : i.arrange.memb = i.memb := rfl
@[simp] theorem Inst.arrange_mem : i.arrange.mem = i.mem := rfl
@[simp] theorem Inst.arrange_ecc : i.arrange.ecc = i.ecc := rfl
@[simp] theorem Inst.arrange_scrub : i.arrange.scrub = i.scrub := rfl
@[simp] theorem Inst.arrange_telem : i.arrange.telem = i.telem := rfl
@[simp] theorem Inst.arrange_cold : i.arrange.cold = i.cold := rfl
@[simp] theorem Inst.arrange_load : i.arrange.load = i.load := rfl
@[simp] theorem Inst.arrange_saved : i.arrange.saved = i.saved := rfl
@[simp] theorem Inst.arrange_free : i.arrange.free = i.free := rfl
@[simp] theorem Inst.arrange_out : i.arrange.out = i.out := rfl

end Arrange

/-! ### Commands of a running die -/

/-- A change of every instance, as the die carries it out. -/
theorem State.changeAll_eq (f : Inst → Inst) (s : State) :
    s.changeAll f = { s with die := (onAll f s.die s.insts).1, insts := (onAll f s.die s.insts).2 } := by
  unfold State.changeAll onAll
  generalize List.finRange 8 = l
  induction l generalizing s with
  | nil => rfl
  | cons k t ih => simp only [List.foldl_cons]; rw [ih]; rfl

/-- The instance after a change of it. -/
theorem State.change_at (s : State) (k : InstId) (f : Inst → Inst) : (s.change k f).insts[k] = (f (s.seen k)).arrange := by
  simp [State.change]

/-- Where an instance holds no access, judging what it holds changes nothing (R42). -/
theorem State.settled_none {k : InstId} {s : State} (h : (s.insts[k]).ctl.stalled = []) : s.settled k = s := by
  unfold State.settled settle
  split <;> simp only []
  rw [h]
  simp only [settleAll]
  have e : (s.insts[k]).ctlMap (fun c => { c with stalled := [] }) = s.insts[k] := by
    generalize s.insts[k] = a at h
    unfold Inst.ctlMap
    rw [← h]
  have put : ∀ v : Vector Inst 8, v.set k v[k] = v := by
    intro v
    apply Vector.ext
    intro n hn
    by_cases e : (k : Nat) = n
    · subst e; simp
    · simp
  rw [e, put]

/-- Everything a command to one instance of a running die does. -/
theorem runInst_on {k : InstId} {f : Inst → Inst} {s : State} (h : s.supply = .on) : runInst k f s = .next (s.change k f) := by
  obtain ⟨_, _, _, _⟩ := s
  cases h
  rfl

/-- A command of a running die answers a next state in which supply and queue stand. -/
theorem runDie_on {f : Die → Vector Inst 8 → Die × Vector Inst 8} {s : State} (h : s.supply = .on) :
    runDie f s = .next { s with die := (f s.die s.insts).1, insts := (f s.die s.insts).2 } := by
  simp only [runDie, h]

/-- A command of an unpowered die changes nothing (R342). -/
theorem runDie_off {f : Die → Vector Inst 8 → Die × Vector Inst 8} {s : State} (h : s.supply = .off) : runDie f s = .next s := by
  simp only [runDie, h]

/-- A command of a stopped engine faults (R321). -/
theorem runDie_stopped {f : Die → Vector Inst 8 → Die × Vector Inst 8} {s : State} (h : s.supply = .stopped) :
    runDie f s = .fault .engineStopped := by
  simp only [runDie, h]

/-- A command that reaches the die or an instance keeps the supply and the queue, and is never refused. -/
theorem runDie_frame {f : Die → Vector Inst 8 → Die × Vector Inst 8} {s t : State} (h : runDie f s = .next t) :
    t.supply = s.supply ∧ t.pending = s.pending := by
  unfold runDie at h
  split at h
  · cases h
  · cases h; exact ⟨rfl, rfl⟩
  · cases h; exact ⟨rfl, rfl⟩

end Sys2Proof.Machine
end

