-- ==== Sys2Proof/Laws/Bus.lean ====
section
/-! SUPPORT. What a register access does once it is taken: at an ACTIVE instance, at a die-wide page, and through a guard sequence. -/

namespace Sys2Proof.Machine

/-- A write of an unguarded listed register that an ACTIVE instance takes. -/
theorem regWrite_inst {init : Initiator} {k : InstId} {page off : Nat} {w : Word} {s : State} (h : s.takes init k page off w)
    (hp : instPage page = true) (hd : diePage page = false) (h1 : regKey page off / 0x1000 = page) (h2 : regKey page off % 0x1000 = off)
    (h3 : regKey page off % 4 = 0) (hh : off ≠ 0x010 ∧ off ≠ 0x01C ∧ off ≠ 0x020 ∧ off ≠ 0x024 ∧ off ≠ 0x028)
    (ht : ¬ (page = 0x1C ∧ off = 0x018)) :
    regWrite init page off w s = .next (s.serve k true (fun i => i.writeEffect init (s.die.ctxSel init) page off
      (if page = 0x1F ∧ off = 0x120 then w else masked page off w))) := by
  obtain ⟨⟨hs, hst, hk, ha⟩, ⟨al, r, hr, hg, hl, hrng⟩⟩ := h
  unfold regWrite
  rw [runDie_on hs]
  simp only [busAccess, hst, Bool.false_eq_true, if_false]
  simp only [busRun, h1, h3, hd, hp, Bool.false_eq_true, if_false, if_true, ne_eq, not_true, or_self, hk]
  have reach : (s.insts[k]).reach page = .serve := by simp only [Inst.reach, ha]
  simp only [instAccess, h1, reach, h2, Option.isSome, al]
  have reach2 : Inst.reach page { s.insts[k] with view := s.die.viewFor s.insts k.val } = .serve := by simp only [Inst.reach, ha]
  simp only [accessAt, Inst.access, h1, h2, reach2]
  have key : ∀ i : Inst, i.ctl.locks = (s.insts[k]).ctl.locks → i.writeReg init (s.die.ctxSel init) page off w =
      i.writeEffect init (s.die.ctxSel init) page off (if page = 0x1F ∧ off = 0x120 then w else masked page off w) := by
    intro i hi
    obtain ⟨n1, n2, n3, n4, n5⟩ := hh
    unfold Inst.writeReg
    split <;> try contradiction
    simp only [hr, Inst.writeListed, masked]
    rw [if_neg hg, if_neg (by rw [hi, hl]; simp), if_neg (by rintro ⟨a, b, _⟩; exact ht ⟨a, b⟩), if_neg (by rw [hrng]; simp)]
  have e := key (s.seen k) rfl
  simp only [State.seen] at e
  rw [e]
  simp only [Bool.not_true, Bool.false_eq_true, if_false, if_neg (show ¬ (Reach.serve = Reach.stall) by decide), Die.answer, Bool.not_false,
    if_true]
  rfl

/-- A write of a page's LOCK or of one of its guard registers that an ACTIVE instance takes. -/
theorem regWrite_header {init : Initiator} {k : InstId} {page off : Nat} {w : Word} {s : State} (h : s.busTo init k)
    (al : allowed init s.die.testLock page off true = true)
    (hp : instPage page = true) (hd : diePage page = false) (h1 : regKey page off / 0x1000 = page) (h2 : regKey page off % 0x1000 = off)
    (h3 : regKey page off % 4 = 0) :
    regWrite init page off w s = .next (s.serve k true (fun i => i.writeReg init (s.die.ctxSel init) page off w)) := by
  obtain ⟨hs, hst, hk, ha⟩ := h
  unfold regWrite
  rw [runDie_on hs]
  simp only [busAccess, hst, Bool.false_eq_true, if_false]
  simp only [busRun, h1, h3, hd, hp, Bool.false_eq_true, if_false, if_true, ne_eq, not_true, or_self, hk]
  have reach : (s.insts[k]).reach page = .serve := by simp only [Inst.reach, ha]
  simp only [instAccess, h1, reach, h2, Option.isSome, al]
  have reach2 : Inst.reach page { s.insts[k] with view := s.die.viewFor s.insts k.val } = .serve := by simp only [Inst.reach, ha]
  simp only [accessAt, Inst.access, h1, h2, reach2]
  simp only [Bool.not_true, Bool.false_eq_true, if_false, if_neg (show ¬ (Reach.serve = Reach.stall) by decide), Die.answer, Bool.not_false,
    if_true]
  rfl

/-- A read an ACTIVE instance serves. -/
theorem regRead_inst {init : Initiator} {k : InstId} {page off : Nat} {s : State} (h : s.reads init k page)
    (hp : instPage page = true) (hd : diePage page = false) (h1 : regKey page off / 0x1000 = page) (h2 : regKey page off % 0x1000 = off)
    (h3 : regKey page off % 4 = 0) :
    regRead init page off s = .next (s.serve k false (fun i =>
      let j := i.counted (Initiator.bank init) page off
      (j.readEffect (Initiator.bank init) (s.die.ctxSel init) page off,
        .value (j.readReg (Initiator.bank init) (s.die.ctxSel init) page off)))) := by
  obtain ⟨⟨hs, hst, hk, ha⟩, al⟩ := h
  unfold regRead
  rw [runDie_on hs]
  simp only [busAccess, hst, Bool.false_eq_true, if_false]
  simp only [busRun, h1, h3, hd, hp, Bool.false_eq_true, if_false, if_true, ne_eq, not_true, or_self, hk]
  have reach : (s.insts[k]).reach page = .serve := by simp only [Inst.reach, ha]
  have al2 : allowed init s.die.testLock page off false = true := by simpa [allowed] using al
  simp only [instAccess, h1, reach, h2, Option.isSome, al2]
  have reach2 : Inst.reach page { s.insts[k] with view := s.die.viewFor s.insts k.val } = .serve := by simp only [Inst.reach, ha]
  simp only [accessAt, Inst.access, h1, h2, reach2]
  simp only [Bool.not_true, Bool.false_eq_true, if_false, if_neg (show ¬ (Reach.serve = Reach.stall) by decide), Die.answer, Bool.not_false,
    if_true]
  rfl

/-- An access to a die-wide page is made at once (R42). -/
theorem regAccess_die {init : Initiator} {page off : Nat} {w : Option Word} {s : State} (h : s.busDie init) (hd : diePage page = true)
    (h1 : regKey page off / 0x1000 = page) (h2 : regKey page off % 0x1000 = off) (h3 : regKey page off % 4 = 0)
    (al : allowed init s.die.testLock page off w.isSome = true) :
    runDie (busAccess init 4 (regKey page off) w) s =
      .next (match w with
        | some w => State.reply true (dieWriteReg init page off w s.die s.insts).2
            { s with die := (dieWriteReg init page off w s.die s.insts).1.1, insts := (dieWriteReg init page off w s.die s.insts).1.2 }
        | none => State.reply false (.value (s.die.readReg (Initiator.bank init) page off s.insts))
            (s.changeDie (Die.readEffect (Initiator.bank init) page off))) := by
  obtain ⟨hs, hst⟩ := h
  rw [runDie_on hs]
  simp only [busAccess, hst, Bool.false_eq_true, if_false]
  simp only [busRun, h1, h3, hd, if_false, if_true, ne_eq, not_true, or_self]
  simp only [dieAccess, h1, h2, al, Bool.not_true, Bool.false_eq_true, if_false]
  cases w <;> rfl

/-- A write of an unguarded listed register of a die-wide page that is taken. -/
theorem dieWriteReg_taken {init : Initiator} {page off : Nat} {w : Word} {s : State} (h : s.dieTakes init page off w)
    (hh : off ≠ 0x010 ∧ off ≠ 0x01C ∧ off ≠ 0x020 ∧ off ≠ 0x024 ∧ off ≠ 0x028) :
    dieWriteReg init page off w s.die s.insts = (dieWriteEffect init page off (masked page off w) s.die s.insts, .done) := by
  obtain ⟨-, ⟨al, r, hr, hg, hl, hrng⟩⟩ := h
  obtain ⟨n1, n2, n3, n4, n5⟩ := hh
  unfold dieWriteReg
  split <;> try contradiction
  simp only [hr, dieWriteListed, masked]
  rw [if_neg hg, if_neg (by rw [hl]; simp), if_neg (by rw [hrng]; simp)]

/-- A guard sequence that is accepted: the sequence ends, the guarded register takes the value, and the outcome is logged (R303, R307). -/
theorem guardB_open {c : Inst} {init : Initiator} {x page off : Nat} {v w : Word}
    (h : guardOpen c.ctl init c.view.testLock c.view.time page off v) (hw : w = ~~~v) :
    c.guardB init x page w =
      (let a := (c.ctlMap (CtlSt.guardEnd (Initiator.bank init) page)).applyGuarded (Initiator.bank init) x page off v
       match a.2 with
       | some o => (a.1.order (Initiator.bank init) page off v o (ordCtx x page off v), .done)
       | none => (a.1, .done)) := by
  obtain ⟨⟨t, hg, ht⟩, gd, hm⟩ := h
  subst hw
  unfold Inst.guardB
  simp only [hg, Guard.fault]
  rw [if_neg (Nat.not_lt.mpr ht), if_neg (by simp), if_neg (by rw [gd]; simp)]
  simp only [BitVec.not_not, hm, Bool.not_true, Bool.false_eq_true, if_false] <;> rfl

end Sys2Proof.Machine
end

