-- ==== Sys2Proof/Laws/Exec.lean ====
section
/-! SUPPORT. Every command but the three that switch the supply reaches the block through the running die. -/

namespace Sys2Proof.Machine

/-- A command that does not switch the supply is a change of the die and its instances, on a running die. -/
theorem exec_runDie : ∀ (c : Instr), ofSupply c = false → ∃ f, ∀ s, exec c s = runDie f s
  | .gradient i g, _ => ⟨_, fun s => (rfl : execGradient i g s = _)⟩
  | .endOfStep i g, _ => ⟨_, fun s => (rfl : execEndOfStep i g s = _)⟩
  | .norm i g, _ => ⟨_, fun s => (rfl : execNorm i g s = _)⟩
  | .beatsWithoutDescriptor i beats, _ => ⟨_, fun s => (rfl : execBeatsWithoutDescriptor i beats s = _)⟩
  | .wake i ctx, _ => ⟨_, fun s => (rfl : execWake i ctx s = _)⟩
  | .updateStart i upsets, _ => ⟨_, fun s => (rfl : execUpdateStart i upsets s = _)⟩
  | .updateWriteback i, _ => ⟨_, fun s => (rfl : execUpdateWriteback i s = _)⟩
  | .emitRecordSend i, _ => ⟨_, fun s => (rfl : execEmitRecordSend i s = _)⟩
  | .emitBackpressure i withheld, _ => ⟨_, fun s => (rfl : execEmitBackpressure i withheld s = _)⟩
  | .codingQueueServe i, _ => ⟨_, fun s => (rfl : execCodingQueueServe i s = _)⟩
  | .stepClose i ctx step, _ => ⟨_, fun s => (rfl : execStepClose i ctx step s = _)⟩
  | .normLate i ctx step, _ => ⟨_, fun s => (rfl : execNormLate i ctx step s = _)⟩
  | .refreshDone i ctx layer tile, _ => ⟨_, fun s => (rfl : execRefreshDone i ctx layer tile s = _)⟩
  | .reemitRequest i r, _ => ⟨_, fun s => (rfl : execReemitRequest i r s = _)⟩
  | .reemitServe i, _ => ⟨_, fun s => (rfl : execReemitServe i s = _)⟩
  | .deltaXor i h b payload, _ => ⟨_, fun s => (rfl : execDeltaXor i h b payload s = _)⟩
  | .shadowPut i h b payload, _ => ⟨_, fun s => (rfl : execShadowPut i h b payload s = _)⟩
  | .commit i h b, _ => ⟨_, fun s => (rfl : execCommit i h b s = _)⟩
  | .ledgerPut i h e, _ => ⟨_, fun s => (rfl : execLedgerPut i h e s = _)⟩
  | .ledgerRetire i h b, _ => ⟨_, fun s => (rfl : execLedgerRetire i h b s = _)⟩
  | .ledgerRead i h b, _ => ⟨_, fun s => (rfl : execLedgerRead i h b s = _)⟩
  | .fragRead i h b, _ => ⟨_, fun s => (rfl : execFragRead i h b s = _)⟩
  | .rebuildPut i h b payload, _ => ⟨_, fun s => (rfl : execRebuildPut i h b payload s = _)⟩
  | .cutover i h b, _ => ⟨_, fun s => (rfl : execCutover i h b s = _)⟩
  | .gradForward i h e, _ => ⟨_, fun s => (rfl : execGradForward i h e s = _)⟩
  | .reemitForward i h r, _ => ⟨_, fun s => (rfl : execReemitForward i h r s = _)⟩
  | .degraded i h b, _ => ⟨_, fun s => (rfl : execDegraded i h b s = _)⟩
  | .mapHandshake i h b, _ => ⟨_, fun s => (rfl : execMapHandshake i h b s = _)⟩
  | .heartbeat i b, _ => ⟨_, fun s => (rfl : execHeartbeat i b s = _)⟩
  | .response i h b, _ => ⟨_, fun s => (rfl : execResponse i h b s = _)⟩
  | .fabricTimeout i entry, _ => ⟨_, fun s => (rfl : execFabricTimeout i entry s = _)⟩
  | .parkedChannelOffer i peer, _ => ⟨_, fun s => (rfl : execParkedChannelOffer i peer s = _)⟩
  | .offWaitOffer i peer, _ => ⟨_, fun s => (rfl : execOffWaitOffer i peer s = _)⟩
  | .retryAfterExpiry i op, _ => ⟨_, fun s => (rfl : execRetryAfterExpiry i op s = _)⟩
  | .joinExpiry i ctx peer, _ => ⟨_, fun s => (rfl : execJoinExpiry i ctx peer s = _)⟩
  | .routeNotice i node direct, _ => ⟨_, fun s => (rfl : execRouteNotice i node direct s = _)⟩
  | .bandwidthNotice i node fraction, _ => ⟨_, fun s => (rfl : execBandwidthNotice i node fraction s = _)⟩
  | .lossNotice i node, _ => ⟨_, fun s => (rfl : execLossNotice i node s = _)⟩
  | .lossCleared i node, _ => ⟨_, fun s => (rfl : execLossCleared i node s = _)⟩
  | .heartbeatSend i, _ => ⟨_, fun s => (rfl : execHeartbeatSend i s = _)⟩
  | .silenceTimeout i peer, _ => ⟨_, fun s => (rfl : execSilenceTimeout i peer s = _)⟩
  | .decodeDone i job, _ => ⟨_, fun s => (rfl : execDecodeDone i job s = _)⟩
  | .rollForward i ctx range, _ => ⟨_, fun s => (rfl : execRollForward i ctx range s = _)⟩
  | .vectorReread i job, _ => ⟨_, fun s => (rfl : execVectorReread i job s = _)⟩
  | .vectorAgreeTimeout i job, _ => ⟨_, fun s => (rfl : execVectorAgreeTimeout i job s = _)⟩
  | .offSourceReplan i job, _ => ⟨_, fun s => (rfl : execOffSourceReplan i job s = _)⟩
  | .chunkRepairDone i job, _ => ⟨_, fun s => (rfl : execChunkRepairDone i job s = _)⟩
  | .rowRepairDone i job, _ => ⟨_, fun s => (rfl : execRowRepairDone i job s = _)⟩
  | .hbmChannelFailure i, _ => ⟨_, fun s => (rfl : execHbmChannelFailure i s = _)⟩
  | .scrubLapStart i, _ => ⟨_, fun s => (rfl : execScrubLapStart i s = _)⟩
  | .scrubSlotRead i read, _ => ⟨_, fun s => (rfl : execScrubSlotRead i read s = _)⟩
  | .scrubLapDone i durationMs, _ => ⟨_, fun s => (rfl : execScrubLapDone i durationMs s = _)⟩
  | .lapLate i, _ => ⟨_, fun s => (rfl : execLapLate i s = _)⟩
  | .scrubForced i, _ => ⟨_, fun s => (rfl : execScrubForced i s = _)⟩
  | .marginSample i hbmTiming hbmVoltage, _ => ⟨_, fun s => (rfl : execMarginSample i hbmTiming hbmVoltage s = _)⟩
  | .marginRestart i, _ => ⟨_, fun s => (rfl : execMarginRestart i s = _)⟩
  | .selfTestDone i nominal steps, _ => ⟨_, fun s => (rfl : execSelfTestDone i nominal steps s = _)⟩
  | .warningEvaluation i, _ => ⟨_, fun s => (rfl : execWarningEvaluation i s = _)⟩
  | .lifeRecordPeriodic i, _ => ⟨_, fun s => (rfl : execLifeRecordPeriodic i s = _)⟩
  | .poolRebuild i, _ => ⟨_, fun s => (rfl : execPoolRebuild i s = _)⟩
  | .dozeAfter i, _ => ⟨_, fun s => (rfl : execDozeAfter i s = _)⟩
  | .napAfter i, _ => ⟨_, fun s => (rfl : execNapAfter i s = _)⟩
  | .powerStateGrant i granted, _ => ⟨_, fun s => (rfl : execPowerStateGrant i granted s = _)⟩
  | .sleepEntryDone i, _ => ⟨_, fun s => (rfl : execSleepEntryDone i s = _)⟩
  | .wakeDone i, _ => ⟨_, fun s => (rfl : execWakeDone i s = _)⟩
  | .wakeTimeout i, _ => ⟨_, fun s => (rfl : execWakeTimeout i s = _)⟩
  | .offRequest i spill, _ => ⟨_, fun s => (rfl : execOffRequest i spill s = _)⟩
  | .offDrainDone i, _ => ⟨_, fun s => (rfl : execOffDrainDone i s = _)⟩
  | .offDrain i, _ => ⟨_, fun s => (rfl : execOffDrain i s = _)⟩
  | .offRollbackDone i, _ => ⟨_, fun s => (rfl : execOffRollbackDone i s = _)⟩
  | .offSaveDone i, _ => ⟨_, fun s => (rfl : execOffSaveDone i s = _)⟩
  | .offEntered i, _ => ⟨_, fun s => (rfl : execOffEntered i s = _)⟩
  | .returnRequest i, _ => ⟨_, fun s => (rfl : execReturnRequest i s = _)⟩
  | .returnPowerUpDone i, _ => ⟨_, fun s => (rfl : execReturnPowerUpDone i s = _)⟩
  | .returnStateRestored i upsets, _ => ⟨_, fun s => (rfl : execReturnStateRestored i upsets s = _)⟩
  | .returnTimeout i, _ => ⟨_, fun s => (rfl : execReturnTimeout i s = _)⟩
  | .imageDelivery i flash manifest seqImage progImage, _ => ⟨_, fun s => (rfl : execImageDelivery i flash manifest seqImage progImage s = _)⟩
  | .programImageReplace i manifest progImage, _ => ⟨_, fun s => (rfl : execProgramImageReplace i manifest progImage s = _)⟩
  | .diePowerOn, h => nomatch h
  | .dieWarmReset preserve, _ => ⟨_, fun s => (rfl : execDieWarmReset preserve s = _)⟩
  | .instanceReset i, _ => ⟨_, fun s => (rfl : execInstanceReset i s = _)⟩
  | .pllLock, _ => ⟨_, fun s => (rfl : execPllLock s = _)⟩
  | .sramClearDone i, _ => ⟨_, fun s => (rfl : execSramClearDone i s = _)⟩
  | .pllLossOfLock, _ => ⟨_, fun s => (rfl : execPllLossOfLock s = _)⟩
  | .emergencyShutdown i, _ => ⟨_, fun s => (rfl : execEmergencyShutdown i s = _)⟩
  | .mapLoad i source, _ => ⟨_, fun s => (rfl : execMapLoad i source s = _)⟩
  | .mapCommit init guardB, _ => ⟨_, fun s => (rfl : execMapCommit init guardB s = _)⟩
  | .commitPoint i ctx, _ => ⟨_, fun s => (rfl : execCommitPoint i ctx s = _)⟩
  | .rollbackDone i ctx, _ => ⟨_, fun s => (rfl : execRollbackDone i ctx s = _)⟩
  | .releaseDone i ctx, _ => ⟨_, fun s => (rfl : execReleaseDone i ctx s = _)⟩
  | .caravanSend i, _ => ⟨_, fun s => (rfl : execCaravanSend i s = _)⟩
  | .cutoverSend i ctx range, _ => ⟨_, fun s => (rfl : execCutoverSend i ctx range s = _)⟩
  | .cmdqPush init w, _ => ⟨_, fun s => (rfl : execCmdqPush init w s = _)⟩
  | .paramLoad i source, _ => ⟨_, fun s => (rfl : execParamLoad i source s = _)⟩
  | .load i, _ => ⟨_, fun s => (rfl : execLoad i s = _)⟩
  | .coldLoad i, _ => ⟨_, fun s => (rfl : execColdLoad i s = _)⟩
  | .digestDump i, _ => ⟨_, fun s => (rfl : execDigestDump i s = _)⟩
  | .colonyCheck i, _ => ⟨_, fun s => (rfl : execColonyCheck i s = _)⟩
  | .coldWrite i, _ => ⟨_, fun s => (rfl : execColdWrite i s = _)⟩
  | .eccTestWrite i source, _ => ⟨_, fun s => (rfl : execEccTestWrite i source s = _)⟩
  | .eccTestRead i, _ => ⟨_, fun s => (rfl : execEccTestRead i s = _)⟩
  | .pcieReadCompletion i cmd chunk result, _ => ⟨_, fun s => (rfl : execPcieReadCompletion i cmd chunk result s = _)⟩
  | .nvmeCompletion i ok bytes, _ => ⟨_, fun s => (rfl : execNvmeCompletion i ok bytes s = _)⟩
  | .guardTarget init page value, _ => ⟨_, fun s => (rfl : execGuardTarget init page value s = _)⟩
  | .guardA init page value, _ => ⟨_, fun s => (rfl : execGuardA init page value s = _)⟩
  | .guardTimeout init page inst, _ => ⟨_, fun s => (rfl : execGuardTimeout init page inst s = _)⟩
  | .resume init, _ => ⟨_, fun s => (rfl : execResume init s = _)⟩
  | .pause init, _ => ⟨_, fun s => (rfl : execPause init s = _)⟩
  | .evacuate init, _ => ⟨_, fun s => (rfl : execEvacuate init s = _)⟩
  | .evacuateEnd init, _ => ⟨_, fun s => (rfl : execEvacuateEnd init s = _)⟩
  | .offline init, _ => ⟨_, fun s => (rfl : execOffline init s = _)⟩
  | .precedenceWindowClose i ctx, _ => ⟨_, fun s => (rfl : execPrecedenceWindowClose i ctx s = _)⟩
  | .instOffline init, _ => ⟨_, fun s => (rfl : execInstOffline init s = _)⟩
  | .instEvacuateSet init, _ => ⟨_, fun s => (rfl : execInstEvacuateSet init s = _)⟩
  | .instEvacuateClear init, _ => ⟨_, fun s => (rfl : execInstEvacuateClear init s = _)⟩
  | .cmdqFlush init guardB, _ => ⟨_, fun s => (rfl : execCmdqFlush init guardB s = _)⟩
  | .coldErase init guardB, _ => ⟨_, fun s => (rfl : execColdErase init guardB s = _)⟩
  | .detLock init, _ => ⟨_, fun s => (rfl : execDetLock init s = _)⟩
  | .muxEn init guardB, _ => ⟨_, fun s => (rfl : execMuxEn init guardB s = _)⟩
  | .lock init page, _ => ⟨_, fun s => (rfl : execLock init page s = _)⟩
  | .registerWrite init addr bytes value, _ => ⟨_, fun s => (rfl : execRegisterWrite init addr bytes value s = _)⟩
  | .ringMtail init page value, _ => ⟨_, fun s => (rfl : execRingMtail init page value s = _)⟩
  | .ringHtail init page value, _ => ⟨_, fun s => (rfl : execRingHtail init page value s = _)⟩
  | .ringIndex init page value, _ => ⟨_, fun s => (rfl : execRingIndex init page value s = _)⟩
  | .ologIndex init page value, _ => ⟨_, fun s => (rfl : execOlogIndex init page value s = _)⟩
  | .recIndex init value, _ => ⟨_, fun s => (rfl : execRecIndex init value s = _)⟩
  | .lostView init value, _ => ⟨_, fun s => (rfl : execLostView init value s = _)⟩
  | .chanSel init value, _ => ⟨_, fun s => (rfl : execChanSel init value s = _)⟩
  | .normSel init value, _ => ⟨_, fun s => (rfl : execNormSel init value s = _)⟩
  | .progSel init value, _ => ⟨_, fun s => (rfl : execProgSel init value s = _)⟩
  | .paramSel init value, _ => ⟨_, fun s => (rfl : execParamSel init value s = _)⟩
  | .paramData init, _ => ⟨_, fun s => (rfl : execParamData init s = _)⟩
  | .corrSel init value, _ => ⟨_, fun s => (rfl : execCorrSel init value s = _)⟩
  | .shareSel init value, _ => ⟨_, fun s => (rfl : execShareSel init value s = _)⟩
  | .bufSel init value, _ => ⟨_, fun s => (rfl : execBufSel init value s = _)⟩
  | .headSel init value, _ => ⟨_, fun s => (rfl : execHeadSel init value s = _)⟩
  | .lastSel init value, _ => ⟨_, fun s => (rfl : execLastSel init value s = _)⟩
  | .emitLastData init, _ => ⟨_, fun s => (rfl : execEmitLastData init s = _)⟩
  | .lastIndex init value, _ => ⟨_, fun s => (rfl : execLastIndex init value s = _)⟩
  | .telemLastData init, _ => ⟨_, fun s => (rfl : execTelemLastData init s = _)⟩
  | .lifeData init, _ => ⟨_, fun s => (rfl : execLifeData init s = _)⟩
  | .lifeAck init value, _ => ⟨_, fun s => (rfl : execLifeAck init value s = _)⟩
  | .epoch init inst value, _ => ⟨_, fun s => (rfl : execEpoch init inst value s = _)⟩
  | .uscalarArm init value, _ => ⟨_, fun s => (rfl : execUscalarArm init value s = _)⟩
  | .planFlush init value, _ => ⟨_, fun s => (rfl : execPlanFlush init value s = _)⟩
  | .cntLo init, _ => ⟨_, fun s => (rfl : execCntLo init s = _)⟩
  | .cntPresetHi init value coincident, _ => ⟨_, fun s => (rfl : execCntPresetHi init value coincident s = _)⟩
  | .freeze init value, _ => ⟨_, fun s => (rfl : execFreeze init value s = _)⟩
  | .timeLo init, _ => ⟨_, fun s => (rfl : execTimeLo init s = _)⟩
  | .stepLo init, _ => ⟨_, fun s => (rfl : execStepLo init s = _)⟩
  | .baseStepLo init, _ => ⟨_, fun s => (rfl : execBaseStepLo init s = _)⟩
  | .uactiveStepLo init, _ => ⟨_, fun s => (rfl : execUactiveStepLo init s = _)⟩
  | .floorLo init, _ => ⟨_, fun s => (rfl : execFloorLo init s = _)⟩
  | .imageStepLo init, _ => ⟨_, fun s => (rfl : execImageStepLo init s = _)⟩
  | .allocReq init value, _ => ⟨_, fun s => (rfl : execAllocReq init value s = _)⟩
  | .release init value, _ => ⟨_, fun s => (rfl : execRelease init value s = _)⟩
  | .sizeApply init value, _ => ⟨_, fun s => (rfl : execSizeApply init value s = _)⟩
  | .ctxMin init value, _ => ⟨_, fun s => (rfl : execCtxMin init value s = _)⟩
  | .mboxSend init value, _ => ⟨_, fun s => (rfl : execMboxSend init value s = _)⟩
  | .mboxPop init value, _ => ⟨_, fun s => (rfl : execMboxPop init value s = _)⟩
  | .jobGo init go, _ => ⟨_, fun s => (rfl : execJobGo init go s = _)⟩
  | .arrayJobDone i bank, _ => ⟨_, fun s => (rfl : execArrayJobDone i bank s = _)⟩
  | .stepSize init value, _ => ⟨_, fun s => (rfl : execStepSize init value s = _)⟩
  | .stepTail init value, _ => ⟨_, fun s => (rfl : execStepTail init value s = _)⟩
  | .sizes init value, _ => ⟨_, fun s => (rfl : execSizes init value s = _)⟩
  | .cplBaseHi init value, _ => ⟨_, fun s => (rfl : execCplBaseHi init value s = _)⟩
  | .reserveExhausted init value, _ => ⟨_, fun s => (rfl : execReserveExhausted init value s = _)⟩
  | .coldPriv init value, _ => ⟨_, fun s => (rfl : execColdPriv init value s = _)⟩
  | .txData init value, _ => ⟨_, fun s => (rfl : execTxData init value s = _)⟩
  | .rxData init, _ => ⟨_, fun s => (rfl : execRxData init s = _)⟩
  | .muartCtl init value, _ => ⟨_, fun s => (rfl : execMuartCtl init value s = _)⟩
  | .muxSel init value, _ => ⟨_, fun s => (rfl : execMuxSel init value s = _)⟩
  | .pinHandover, _ => ⟨_, fun s => (rfl : execPinHandover s = _)⟩
  | .uartReceive byte stopBit, _ => ⟨_, fun s => (rfl : execUartReceive byte stopBit s = _)⟩
  | .bridgeRead, _ => ⟨_, fun s => (rfl : execBridgeRead s = _)⟩
  | .bridgeWrite, _ => ⟨_, fun s => (rfl : execBridgeWrite s = _)⟩
  | .bridgeFrameTimeout, _ => ⟨_, fun s => (rfl : execBridgeFrameTimeout s = _)⟩
  | .gradInDescriptorPresented i, _ => ⟨_, fun s => (rfl : execGradInDescriptorPresented i s = _)⟩
  | .diePowerLoss, h => nomatch h
  | .aonClockStop, h => nomatch h
  | .uartTransmit, _ => ⟨_, fun s => (rfl : execUartTransmit s = _)⟩

/-- A change of one instance leaves the others. -/
theorem onInst_leaves {k : InstId} {g : Inst → Inst} : ∀ d v (j : InstId), j ≠ k → (onInst k g d v).2[j] = v[j] := by
  intro d v j h
  have : k.val ≠ j.val := fun e => h (Fin.ext e.symm)
  simp [onInst, Vector.getElem_set_ne, this]

/-- An access made at an instance leaves the others. -/
theorem instAccess_leaves {k : InstId} {a : Stalled} : ∀ d v (j : InstId), j ≠ k → (instAccess k a d v).1.2[j] = v[j] := by
  intro d v j h
  have : k.val ≠ j.val := fun e => h (Fin.ext e.symm)
  unfold instAccess
  split
  · rfl
  · split
    · exact onInst_leaves d v j h
    · split
      · exact onInst_leaves d v j h
      · simp [accessAt, Vector.getElem_set_ne, this]

/-- Accesses held at an instance that go on leave the others. -/
theorem settle_leaves {k : InstId} : ∀ p (j : InstId), j ≠ k → (settle k p).2[j] = p.2[j] := by
  intro p j h
  have hk : k.val ≠ j.val := fun e => h (Fin.ext e.symm)
  have all : ∀ l d v, (settleAll k l d v).2[j] = v[j] := by
    intro l
    induction l with
    | nil => intro d v; rfl
    | cons a t ih => intro d v; simp only [settleAll]; rw [ih]; exact instAccess_leaves d v j h
  unfold settle
  split
  · rfl
  · rfl
  · rw [all]; simp [Vector.getElem_set_ne, hk]

/-- Accesses that go on once an instance has changed. -/
theorem settle_onInst_leaves {k : InstId} {g : Inst → Inst} :
    ∀ d v (j : InstId), j ≠ k → (settle k (onInst k g d v)).2[j] = v[j] :=
  fun d v j h => (settle_leaves _ j h).trans (onInst_leaves d v j h)

theorem dieWake_leaves {k : InstId} : ∀ d v (j : InstId), j ≠ k → (dieWake k d v).2[j] = v[j] := by
  intro d v j h
  unfold dieWake
  split
  · exact (onInst_leaves _ _ j h).trans (settle_onInst_leaves d v j h)
  · rfl

/-- A command to one instance leaves the others. -/
theorem exec_inst_leaves : ∀ (c : Instr) (k : InstId), instOf c = some k →
    ∃ f, (∀ s, exec c s = runDie f s) ∧ ∀ d v (j : InstId), j ≠ k → (f d v).2[j] = v[j]
  | .gradient i g, _, rfl => ⟨onInst i _, fun s => (rfl : execGradient i g s = runDie _ s), onInst_leaves⟩
  | .endOfStep i g, _, rfl => ⟨onInst i _, fun s => (rfl : execEndOfStep i g s = runDie _ s), onInst_leaves⟩
  | .norm i g, _, rfl => ⟨onInst i _, fun s => (rfl : execNorm i g s = runDie _ s), onInst_leaves⟩
  | .beatsWithoutDescriptor i beats, _, rfl => ⟨onInst i _, fun s => (rfl : execBeatsWithoutDescriptor i beats s = runDie _ s), onInst_leaves⟩
  | .wake i ctx, _, rfl => ⟨onInst i _, fun s => (rfl : execWake i ctx s = runDie _ s), onInst_leaves⟩
  | .updateStart i upsets, _, rfl => ⟨onInst i _, fun s => (rfl : execUpdateStart i upsets s = runDie _ s), onInst_leaves⟩
  | .updateWriteback i, _, rfl => ⟨onInst i _, fun s => (rfl : execUpdateWriteback i s = runDie _ s), onInst_leaves⟩
  | .emitRecordSend i, _, rfl => ⟨onInst i _, fun s => (rfl : execEmitRecordSend i s = runDie _ s), onInst_leaves⟩
  | .emitBackpressure i withheld, _, rfl => ⟨onInst i _, fun s => (rfl : execEmitBackpressure i withheld s = runDie _ s), onInst_leaves⟩
  | .codingQueueServe i, _, rfl => ⟨onInst i _, fun s => (rfl : execCodingQueueServe i s = runDie _ s), onInst_leaves⟩
  | .stepClose i ctx step, _, rfl => ⟨onInst i _, fun s => (rfl : execStepClose i ctx step s = runDie _ s), onInst_leaves⟩
  | .normLate i ctx step, _, rfl => ⟨onInst i _, fun s => (rfl : execNormLate i ctx step s = runDie _ s), onInst_leaves⟩
  | .refreshDone i ctx layer tile, _, rfl => ⟨onInst i _, fun s => (rfl : execRefreshDone i ctx layer tile s = runDie _ s), onInst_leaves⟩
  | .reemitRequest i r, _, rfl => ⟨onInst i _, fun s => (rfl : execReemitRequest i r s = runDie _ s), onInst_leaves⟩
  | .reemitServe i, _, rfl => ⟨onInst i _, fun s => (rfl : execReemitServe i s = runDie _ s), onInst_leaves⟩
  | .deltaXor i h b payload, _, rfl => ⟨onInst i _, fun s => (rfl : execDeltaXor i h b payload s = runDie _ s), onInst_leaves⟩
  | .shadowPut i h b payload, _, rfl => ⟨onInst i _, fun s => (rfl : execShadowPut i h b payload s = runDie _ s), onInst_leaves⟩
  | .commit i h b, _, rfl => ⟨onInst i _, fun s => (rfl : execCommit i h b s = runDie _ s), onInst_leaves⟩
  | .ledgerPut i h e, _, rfl => ⟨onInst i _, fun s => (rfl : execLedgerPut i h e s = runDie _ s), onInst_leaves⟩
  | .ledgerRetire i h b, _, rfl => ⟨onInst i _, fun s => (rfl : execLedgerRetire i h b s = runDie _ s), onInst_leaves⟩
  | .ledgerRead i h b, _, rfl => ⟨onInst i _, fun s => (rfl : execLedgerRead i h b s = runDie _ s), onInst_leaves⟩
  | .fragRead i h b, _, rfl => ⟨onInst i _, fun s => (rfl : execFragRead i h b s = runDie _ s), onInst_leaves⟩
  | .rebuildPut i h b payload, _, rfl => ⟨onInst i _, fun s => (rfl : execRebuildPut i h b payload s = runDie _ s), onInst_leaves⟩
  | .cutover i h b, _, rfl => ⟨onInst i _, fun s => (rfl : execCutover i h b s = runDie _ s), onInst_leaves⟩
  | .gradForward i h e, _, rfl => ⟨onInst i _, fun s => (rfl : execGradForward i h e s = runDie _ s), onInst_leaves⟩
  | .reemitForward i h r, _, rfl => ⟨onInst i _, fun s => (rfl : execReemitForward i h r s = runDie _ s), onInst_leaves⟩
  | .degraded i h b, _, rfl => ⟨onInst i _, fun s => (rfl : execDegraded i h b s = runDie _ s), onInst_leaves⟩
  | .mapHandshake i h b, _, rfl => ⟨onInst i _, fun s => (rfl : execMapHandshake i h b s = runDie _ s), onInst_leaves⟩
  | .heartbeat i b, _, rfl => ⟨onInst i _, fun s => (rfl : execHeartbeat i b s = runDie _ s), onInst_leaves⟩
  | .response i h b, _, rfl => ⟨onInst i _, fun s => (rfl : execResponse i h b s = runDie _ s), onInst_leaves⟩
  | .fabricTimeout i entry, _, rfl => ⟨onInst i _, fun s => (rfl : execFabricTimeout i entry s = runDie _ s), onInst_leaves⟩
  | .parkedChannelOffer i peer, _, rfl => ⟨onInst i _, fun s => (rfl : execParkedChannelOffer i peer s = runDie _ s), onInst_leaves⟩
  | .offWaitOffer i peer, _, rfl => ⟨onInst i _, fun s => (rfl : execOffWaitOffer i peer s = runDie _ s), onInst_leaves⟩
  | .retryAfterExpiry i op, _, rfl => ⟨onInst i _, fun s => (rfl : execRetryAfterExpiry i op s = runDie _ s), onInst_leaves⟩
  | .joinExpiry i ctx peer, _, rfl => ⟨onInst i _, fun s => (rfl : execJoinExpiry i ctx peer s = runDie _ s), onInst_leaves⟩
  | .routeNotice i node direct, _, rfl => ⟨onInst i _, fun s => (rfl : execRouteNotice i node direct s = runDie _ s), onInst_leaves⟩
  | .bandwidthNotice i node fraction, _, rfl => ⟨onInst i _, fun s => (rfl : execBandwidthNotice i node fraction s = runDie _ s), onInst_leaves⟩
  | .lossNotice i node, _, rfl => ⟨onInst i _, fun s => (rfl : execLossNotice i node s = runDie _ s), onInst_leaves⟩
  | .lossCleared i node, _, rfl => ⟨onInst i _, fun s => (rfl : execLossCleared i node s = runDie _ s), onInst_leaves⟩
  | .heartbeatSend i, _, rfl => ⟨onInst i _, fun s => (rfl : execHeartbeatSend i s = runDie _ s), onInst_leaves⟩
  | .silenceTimeout i peer, _, rfl => ⟨onInst i _, fun s => (rfl : execSilenceTimeout i peer s = runDie _ s), onInst_leaves⟩
  | .decodeDone i job, _, rfl => ⟨onInst i _, fun s => (rfl : execDecodeDone i job s = runDie _ s), onInst_leaves⟩
  | .rollForward i ctx range, _, rfl => ⟨onInst i _, fun s => (rfl : execRollForward i ctx range s = runDie _ s), onInst_leaves⟩
  | .vectorReread i job, _, rfl => ⟨onInst i _, fun s => (rfl : execVectorReread i job s = runDie _ s), onInst_leaves⟩
  | .vectorAgreeTimeout i job, _, rfl => ⟨onInst i _, fun s => (rfl : execVectorAgreeTimeout i job s = runDie _ s), onInst_leaves⟩
  | .offSourceReplan i job, _, rfl => ⟨onInst i _, fun s => (rfl : execOffSourceReplan i job s = runDie _ s), onInst_leaves⟩
  | .chunkRepairDone i job, _, rfl => ⟨onInst i _, fun s => (rfl : execChunkRepairDone i job s = runDie _ s), onInst_leaves⟩
  | .rowRepairDone i job, _, rfl => ⟨onInst i _, fun s => (rfl : execRowRepairDone i job s = runDie _ s), onInst_leaves⟩
  | .hbmChannelFailure i, _, rfl => ⟨onInst i _, fun s => (rfl : execHbmChannelFailure i s = runDie _ s), onInst_leaves⟩
  | .scrubLapStart i, _, rfl => ⟨onInst i _, fun s => (rfl : execScrubLapStart i s = runDie _ s), onInst_leaves⟩
  | .scrubSlotRead i read, _, rfl => ⟨onInst i _, fun s => (rfl : execScrubSlotRead i read s = runDie _ s), onInst_leaves⟩
  | .scrubLapDone i durationMs, _, rfl => ⟨onInst i _, fun s => (rfl : execScrubLapDone i durationMs s = runDie _ s), onInst_leaves⟩
  | .lapLate i, _, rfl => ⟨onInst i _, fun s => (rfl : execLapLate i s = runDie _ s), onInst_leaves⟩
  | .scrubForced i, _, rfl => ⟨onInst i _, fun s => (rfl : execScrubForced i s = runDie _ s), onInst_leaves⟩
  | .marginSample i hbmTiming hbmVoltage, _, rfl => ⟨onInst i _, fun s => (rfl : execMarginSample i hbmTiming hbmVoltage s = runDie _ s), onInst_leaves⟩
  | .marginRestart i, _, rfl => ⟨onInst i _, fun s => (rfl : execMarginRestart i s = runDie _ s), onInst_leaves⟩
  | .selfTestDone i nominal steps, _, rfl => ⟨onInst i _, fun s => (rfl : execSelfTestDone i nominal steps s = runDie _ s), onInst_leaves⟩
  | .warningEvaluation i, _, rfl => ⟨onInst i _, fun s => (rfl : execWarningEvaluation i s = runDie _ s), onInst_leaves⟩
  | .lifeRecordPeriodic i, _, rfl => ⟨onInst i _, fun s => (rfl : execLifeRecordPeriodic i s = runDie _ s), onInst_leaves⟩
  | .poolRebuild i, _, rfl => ⟨onInst i _, fun s => (rfl : execPoolRebuild i s = runDie _ s), onInst_leaves⟩
  | .dozeAfter i, _, rfl => ⟨onInst i _, fun s => (rfl : execDozeAfter i s = runDie _ s), onInst_leaves⟩
  | .napAfter i, _, rfl => ⟨onInst i _, fun s => (rfl : execNapAfter i s = runDie _ s), onInst_leaves⟩
  | .powerStateGrant i granted, _, rfl => ⟨onInst i _, fun s => (rfl : execPowerStateGrant i granted s = runDie _ s), onInst_leaves⟩
  | .sleepEntryDone i, _, rfl => ⟨onInst i _, fun s => (rfl : execSleepEntryDone i s = runDie _ s), onInst_leaves⟩
  | .wakeDone i, _, rfl => ⟨dieWake i, fun s => (rfl : execWakeDone i s = runDie _ s), dieWake_leaves⟩
  | .wakeTimeout i, _, rfl => ⟨fun d v => settle i (onInst i (fun x => x.wakeTimeout.sleepEnds) d v), fun s => (rfl : execWakeTimeout i s = runDie _ s), fun d v => settle_onInst_leaves d v⟩
  | .offRequest i spill, _, rfl => ⟨onInst i _, fun s => (rfl : execOffRequest i spill s = runDie _ s), onInst_leaves⟩
  | .offDrainDone i, _, rfl => ⟨onInst i _, fun s => (rfl : execOffDrainDone i s = runDie _ s), onInst_leaves⟩
  | .offDrain i, _, rfl => ⟨onInst i _, fun s => (rfl : execOffDrain i s = runDie _ s), onInst_leaves⟩
  | .offRollbackDone i, _, rfl => ⟨onInst i _, fun s => (rfl : execOffRollbackDone i s = runDie _ s), onInst_leaves⟩
  | .offSaveDone i, _, rfl => ⟨onInst i _, fun s => (rfl : execOffSaveDone i s = runDie _ s), onInst_leaves⟩
  | .offEntered i, _, rfl => ⟨onInst i _, fun s => (rfl : execOffEntered i s = runDie _ s), onInst_leaves⟩
  | .returnRequest i, _, rfl => ⟨onInst i _, fun s => (rfl : execReturnRequest i s = runDie _ s), onInst_leaves⟩
  | .returnPowerUpDone i, _, rfl => ⟨fun d v => onInst i (Inst.returnPower d.pll) d v, fun s => (rfl : execReturnPowerUpDone i s = runDie _ s), fun d v => onInst_leaves d v⟩
  | .returnStateRestored i upsets, _, rfl => ⟨onInst i _, fun s => (rfl : execReturnStateRestored i upsets s = runDie _ s), onInst_leaves⟩
  | .returnTimeout i, _, rfl => ⟨onInst i _, fun s => (rfl : execReturnTimeout i s = runDie _ s), onInst_leaves⟩
  | .imageDelivery i flash manifest seqImage progImage, _, rfl => ⟨onInst i _, fun s => (rfl : execImageDelivery i flash manifest seqImage progImage s = runDie _ s), onInst_leaves⟩
  | .programImageReplace i manifest progImage, _, rfl => ⟨onInst i _, fun s => (rfl : execProgramImageReplace i manifest progImage s = runDie _ s), onInst_leaves⟩
  | .diePowerOn, _, h => nomatch h
  | .dieWarmReset _, _, h => nomatch h
  | .instanceReset i, _, rfl => ⟨fun d v => settle i (onInst i (Inst.reset 0 d.pll) d v), fun s => (rfl : execInstanceReset i s = runDie _ s), fun d v => settle_onInst_leaves d v⟩
  | .pllLock, _, h => nomatch h
  | .sramClearDone i, _, rfl => ⟨onInst i _, fun s => (rfl : execSramClearDone i s = runDie _ s), onInst_leaves⟩
  | .pllLossOfLock, _, h => nomatch h
  | .emergencyShutdown i, _, rfl => ⟨fun d v => settle i (onInst i (fun x => x.emergency.sleepEnds) d v), fun s => (rfl : execEmergencyShutdown i s = runDie _ s), fun d v => settle_onInst_leaves d v⟩
  | .mapLoad i source, _, rfl => ⟨onInst i _, fun s => (rfl : execMapLoad i source s = runDie _ s), onInst_leaves⟩
  | .mapCommit _ _, _, h => nomatch h
  | .commitPoint i ctx, _, rfl => ⟨onInst i _, fun s => (rfl : execCommitPoint i ctx s = runDie _ s), onInst_leaves⟩
  | .rollbackDone i ctx, _, rfl => ⟨onInst i _, fun s => (rfl : execRollbackDone i ctx s = runDie _ s), onInst_leaves⟩
  | .releaseDone i ctx, _, rfl => ⟨onInst i _, fun s => (rfl : execReleaseDone i ctx s = runDie _ s), onInst_leaves⟩
  | .caravanSend i, _, rfl => ⟨onInst i _, fun s => (rfl : execCaravanSend i s = runDie _ s), onInst_leaves⟩
  | .cutoverSend i ctx range, _, rfl => ⟨onInst i _, fun s => (rfl : execCutoverSend i ctx range s = runDie _ s), onInst_leaves⟩
  | .cmdqPush _ _, _, h => nomatch h
  | .paramLoad i source, _, rfl => ⟨onInst i _, fun s => (rfl : execParamLoad i source s = runDie _ s), onInst_leaves⟩
  | .load i, _, rfl => ⟨onInst i _, fun s => (rfl : execLoad i s = runDie _ s), onInst_leaves⟩
  | .coldLoad i, _, rfl => ⟨onInst i _, fun s => (rfl : execColdLoad i s = runDie _ s), onInst_leaves⟩
  | .digestDump i, _, rfl => ⟨onInst i _, fun s => (rfl : execDigestDump i s = runDie _ s), onInst_leaves⟩
  | .colonyCheck i, _, rfl => ⟨onInst i _, fun s => (rfl : execColonyCheck i s = runDie _ s), onInst_leaves⟩
  | .coldWrite i, _, rfl => ⟨onInst i _, fun s => (rfl : execColdWrite i s = runDie _ s), onInst_leaves⟩
  | .eccTestWrite i source, _, rfl => ⟨onInst i _, fun s => (rfl : execEccTestWrite i source s = runDie _ s), onInst_leaves⟩
  | .eccTestRead i, _, rfl => ⟨onInst i _, fun s => (rfl : execEccTestRead i s = runDie _ s), onInst_leaves⟩
  | .pcieReadCompletion i cmd chunk result, _, rfl => ⟨onInst i _, fun s => (rfl : execPcieReadCompletion i cmd chunk result s = runDie _ s), onInst_leaves⟩
  | .nvmeCompletion i ok bytes, _, rfl => ⟨onInst i _, fun s => (rfl : execNvmeCompletion i ok bytes s = runDie _ s), onInst_leaves⟩
  | .guardTarget _ _ _, _, h => nomatch h
  | .guardA _ _ _, _, h => nomatch h
  | .guardTimeout _ _ _, _, h => nomatch h
  | .resume _, _, h => nomatch h
  | .pause _, _, h => nomatch h
  | .evacuate _, _, h => nomatch h
  | .evacuateEnd _, _, h => nomatch h
  | .offline _, _, h => nomatch h
  | .precedenceWindowClose i ctx, _, rfl => ⟨onInst i _, fun s => (rfl : execPrecedenceWindowClose i ctx s = runDie _ s), onInst_leaves⟩
  | .instOffline _, _, h => nomatch h
  | .instEvacuateSet _, _, h => nomatch h
  | .instEvacuateClear _, _, h => nomatch h
  | .cmdqFlush _ _, _, h => nomatch h
  | .coldErase _ _, _, h => nomatch h
  | .detLock _, _, h => nomatch h
  | .muxEn _ _, _, h => nomatch h
  | .lock _ _, _, h => nomatch h
  | .registerWrite _ _ _ _, _, h => nomatch h
  | .ringMtail _ _ _, _, h => nomatch h
  | .ringHtail _ _ _, _, h => nomatch h
  | .ringIndex _ _ _, _, h => nomatch h
  | .ologIndex _ _ _, _, h => nomatch h
  | .recIndex _ _, _, h => nomatch h
  | .lostView _ _, _, h => nomatch h
  | .chanSel _ _, _, h => nomatch h
  | .normSel _ _, _, h => nomatch h
  | .progSel _ _, _, h => nomatch h
  | .paramSel _ _, _, h => nomatch h
  | .paramData _, _, h => nomatch h
  | .corrSel _ _, _, h => nomatch h
  | .shareSel _ _, _, h => nomatch h
  | .bufSel _ _, _, h => nomatch h
  | .headSel _ _, _, h => nomatch h
  | .lastSel _ _, _, h => nomatch h
  | .emitLastData _, _, h => nomatch h
  | .lastIndex _ _, _, h => nomatch h
  | .telemLastData _, _, h => nomatch h
  | .lifeData _, _, h => nomatch h
  | .lifeAck _ _, _, h => nomatch h
  | .epoch _ _ _, _, h => nomatch h
  | .uscalarArm _ _, _, h => nomatch h
  | .planFlush _ _, _, h => nomatch h
  | .cntLo _, _, h => nomatch h
  | .cntPresetHi _ _ _, _, h => nomatch h
  | .freeze _ _, _, h => nomatch h
  | .timeLo _, _, h => nomatch h
  | .stepLo _, _, h => nomatch h
  | .baseStepLo _, _, h => nomatch h
  | .uactiveStepLo _, _, h => nomatch h
  | .floorLo _, _, h => nomatch h
  | .imageStepLo _, _, h => nomatch h
  | .allocReq _ _, _, h => nomatch h
  | .release _ _, _, h => nomatch h
  | .sizeApply _ _, _, h => nomatch h
  | .ctxMin _ _, _, h => nomatch h
  | .mboxSend _ _, _, h => nomatch h
  | .mboxPop _ _, _, h => nomatch h
  | .jobGo _ _, _, h => nomatch h
  | .arrayJobDone i bank, _, rfl => ⟨onInst i _, fun s => (rfl : execArrayJobDone i bank s = runDie _ s), onInst_leaves⟩
  | .stepSize _ _, _, h => nomatch h
  | .stepTail _ _, _, h => nomatch h
  | .sizes _ _, _, h => nomatch h
  | .cplBaseHi _ _, _, h => nomatch h
  | .reserveExhausted _ _, _, h => nomatch h
  | .coldPriv _ _, _, h => nomatch h
  | .txData _ _, _, h => nomatch h
  | .rxData _, _, h => nomatch h
  | .muartCtl _ _, _, h => nomatch h
  | .muxSel _ _, _, h => nomatch h
  | .pinHandover, _, h => nomatch h
  | .uartReceive _ _, _, h => nomatch h
  | .bridgeRead, _, h => nomatch h
  | .bridgeWrite, _, h => nomatch h
  | .bridgeFrameTimeout, _, h => nomatch h
  | .gradInDescriptorPresented i, _, rfl => ⟨onInst i _, fun s => (rfl : execGradInDescriptorPresented i s = runDie _ s), onInst_leaves⟩
  | .diePowerLoss, _, h => nomatch h
  | .aonClockStop, _, h => nomatch h
  | .uartTransmit, _, h => nomatch h

end Sys2Proof.Machine
end

