-- ==== Sys2Proof/Laws/Tables.lean ====
section
/-! SUPPORT. Reads of a table after a change of it, and the contexts of an instance after a change of one. -/

namespace Sys2Proof

theorem Tbl.find_put_same {α : Type} (k : Nat) (v : α) (t : Tbl α) : Tbl.find k (Tbl.put k v t) = some v := by
  induction t with
  | nil => simp [Tbl.put, Tbl.find]
  | cons p t ih =>
    obtain ⟨a, b⟩ := p
    simp only [Tbl.put]
    split
    · simp [Tbl.find]
    · split
      · simp [Tbl.find]
      · rename_i h
        simp only [Tbl.find]
        rw [if_neg (fun e => h e.symm), ih]

theorem Tbl.find_put_other {α : Type} {j k : Nat} (h : j ≠ k) (v : α) (t : Tbl α) : Tbl.find j (Tbl.put k v t) = Tbl.find j t := by
  induction t with
  | nil => simp [Tbl.put, Tbl.find, h.symm]
  | cons p t ih =>
    obtain ⟨a, b⟩ := p
    simp only [Tbl.put]
    split
    · simp [Tbl.find, h.symm]
    · split
      · rename_i e
        subst e
        simp [Tbl.find, h.symm]
      · simp only [Tbl.find, ih]

@[simp] theorem Tbl.getD_put_same {α : Type} (d : α) (k : Nat) (v : α) (t : Tbl α) : Tbl.getD d k (Tbl.put k v t) = v := by
  simp [Tbl.getD, Tbl.find_put_same]

theorem Tbl.getD_put_other {α : Type} (d : α) {j k : Nat} (h : j ≠ k) (v : α) (t : Tbl α) :
    Tbl.getD d j (Tbl.put k v t) = Tbl.getD d j t := by
  simp [Tbl.getD, Tbl.find_put_other h]

theorem Tbl.put_put {α : Type} (k : Nat) (v w : α) (t : Tbl α) : Tbl.put k v (Tbl.put k w t) = Tbl.put k v t := by
  induction t with
  | nil => simp [Tbl.put]
  | cons p t ih =>
    obtain ⟨a, b⟩ := p
    by_cases h : k < a
    · simp [Tbl.put, h]
    · by_cases e : k = a
      · simp [Tbl.put, e]
      · simp only [Tbl.put, if_neg h, if_neg e, ih]

end Sys2Proof

namespace Sys2Proof.Machine

@[simp] theorem Inst.ctx_setCtx_same (x : Nat) (c : CtxSt) (i : Inst) : (i.setCtx x c).ctx x = c :=
  Tbl.getD_put_same _ _ _ _

theorem Inst.ctx_setCtx_other {x y : Nat} (h : y ≠ x) (c : CtxSt) (i : Inst) : (i.setCtx x c).ctx y = i.ctx y :=
  Tbl.getD_put_other _ h _ _

@[simp] theorem Inst.ctx_modCtx_same (x : Nat) (f : CtxSt → CtxSt) (i : Inst) : (i.modCtx x f).ctx x = f (i.ctx x) :=
  Inst.ctx_setCtx_same _ _ _

@[simp] theorem Inst.ctx_modRun_same (x : Nat) (f : CtxRun → CtxRun) (i : Inst) :
    (i.modRun x f).ctx x = { i.ctx x with run := f (i.ctx x).run } :=
  Inst.ctx_setCtx_same _ _ _

theorem Inst.ctx_modRun_other {x y : Nat} (h : y ≠ x) (f : CtxRun → CtxRun) (i : Inst) : (i.modRun x f).ctx y = i.ctx y :=
  Inst.ctx_setCtx_other h _ _

/-- The maps of a context stand when its running state changes. -/
@[simp] theorem Inst.image_modRun (x y : Nat) (f : CtxRun → CtxRun) (i : Inst) : (i.modRun x f).image y = i.image y := by
  by_cases h : y = x
  · subst h
    unfold Inst.image
    rw [Inst.ctx_modRun_same]
    rfl
  · unfold Inst.image
    rw [Inst.ctx_modRun_other h]

end Sys2Proof.Machine
end

