-- ==== Sys2Proof/Laws/Frames.lean ====
section
/-! SUPPORT. What the shared operations of an instance can change: counting, logging, the life record, a fault record, a fault found in oneself. -/

namespace Sys2Proof.Machine

/-- Counting changes the counters alone (R343). -/
theorem Inst.count_frame (k n : Nat) (i : Inst) : ∃ t, i.count k n = { i with telem := t } ∧ t.life = i.telem.life ∧ t.flash = i.telem.flash := by
  unfold Inst.count
  split
  · exact ⟨i.telem, rfl, rfl, rfl⟩
  · exact ⟨_, rfl, rfl, rfl⟩

/-- Logging changes the event ring and the counters of what it drops (R301, R302). -/
theorem Inst.events_frame (es : List (Nat × Nat × List (Nat × Nat × Nat))) (x init : Option Nat) (i : Inst) :
    ∃ r t, i.events es x init = { i with ctl := { i.ctl with logs := { i.ctl.logs with ring := r } }, telem := t } ∧
      t.life = i.telem.life ∧ t.flash = i.telem.flash := by
  simp only [Inst.events]
  generalize Ring.push 1024 (fun k => eventEntry i.view.time 0xFF02 0x10 none 0 none [(20, 4, k)]) _ i.ctl.logs.ring = p
  simp only [Inst.count]
  split <;> split <;> exact ⟨_, _, rfl, rfl, rfl⟩

theorem Inst.event_frame (c : Nat) (x : Option Nat) (l : List (Nat × Nat × Nat)) (i : Inst) :
    ∃ r t, i.event c x l = { i with ctl := { i.ctl with logs := { i.ctl.logs with ring := r } }, telem := t } ∧
      t.life = i.telem.life ∧ t.flash = i.telem.flash :=
  Inst.events_frame _ x none i

/-- Entering a power state accounts for the time in the last one and changes the state (R353). -/
theorem Inst.setPState_frame (p : PState) (i : Inst) :
    ∃ t, i.setPState p = { i with pw := { i.pw with state := p }, telem := t } := ⟨_, rfl⟩

/-- A life-record trigger changes telemetry and the event ring (R354). -/
theorem Inst.lifeTrigger_frame (b : Bool) (i : Inst) :
    ∃ r t, i.lifeTrigger b = { i with ctl := { i.ctl with logs := { i.ctl.logs with ring := r } }, telem := t } := by
  unfold Inst.lifeTrigger
  split
  · simp only []
    split
    · obtain ⟨t, e, -⟩ := Inst.count_frame Cnt.lifeLate 1
        { i with telem := { i.telem with held := true, heldPeriodic := i.telem.heldPeriodic || b } }
      rw [e]
      obtain ⟨r, u, e, -⟩ := Inst.event_frame 0x2004 none [] { i with telem := t }
      rw [e]
      exact ⟨_, _, rfl⟩
    · exact ⟨i.ctl.logs.ring, _, rfl⟩
  · exact ⟨i.ctl.logs.ring, _, rfl⟩

/-- A fault record changes the record list, telemetry and the event ring (R126). -/
theorem Inst.faultRecord_frame (f : FaultRec) (i : Inst) :
    ∃ v r t, i.faultRecord f = { i with flt := v, ctl := { i.ctl with logs := { i.ctl.logs with ring := r } }, telem := t } := by
  unfold Inst.faultRecord
  simp only []
  obtain ⟨r, t, e, -⟩ := Inst.event_frame 0x1501 f.ctx [(20, 1, f.kind), (21, 1, f.cause), (24, 4, (i.flt.recCount + 1) % 2 ^ 32)] _
  rw [e]
  obtain ⟨r, t, e⟩ := Inst.lifeTrigger_frame false _
  rw [e]
  exact ⟨_, _, _, rfl⟩

/-- Everything a fault an instance finds in itself changes (R40, R247, R273). -/
theorem Inst.selfFault_frame (c d : Nat) (i : Inst) (h : i.pw.state ≠ .faulted) :
    ∃ v r t o, i.selfFault c d = { i with
      pw := { i.pw with state := .faulted, selfCause := c, request := none, entering := none, waking := false, wakeAfter := false,
                        offPhase := .none },
      fab := { i.fab with cpl := [], outq := [], retry := [], frontEnd := [], partials := [] },
      mem := { i.mem with staging := [], stagePoison := [] },
      flt := v, ctl := { i.ctl with logs := { i.ctl.logs with ring := r } }, telem := t, out := o } := by
  unfold Inst.selfFault
  rw [if_neg h]
  obtain ⟨t, e⟩ := Inst.setPState_frame .faulted i
  simp only [e]
  obtain ⟨v, r, t, e⟩ := Inst.faultRecord_frame { kind := 2, cause := c, ctx := none, subject := _, detector := _, detail := d } _
  rw [e]
  exact ⟨_, _, _, _, rfl⟩

/-- An array that nothing wants and that has nothing stays as it is (R201). -/
theorem Inst.arrange_idle (i : Inst) (h : i.arrWork = []) (hr : i.arr.run = none) (hp : i.arr.parked = none) (hq : i.arr.queue = []) :
    i.arrange = i := by
  simp [Inst.arrange, ArrSt.turn, h, hr, hp, hq]

/-- A job that begins leaves the bank that is not active alone, whatever a parked job left there (R200). -/
theorem ArrCells.enter_keeps (c : ArrCells) (cell n : Nat) (hn : n ≠ c.active) (ha : c.active ≤ 1) (h1 : n ≤ 1) :
    c.enter.window n cell = c.window n cell ∧ c.enter.gf n cell = c.gf n cell := by
  obtain h | h : c.active = 0 ∨ c.active = 1 := by omega
  · obtain rfl : n = 1 := by omega
    simp [ArrCells.enter, ArrCells.window, ArrCells.gf, ArrCells.bank, h]
  · obtain rfl : n = 0 := by omega
    simp [ArrCells.enter, ArrCells.window, ArrCells.gf, ArrCells.bank, h]

end Sys2Proof.Machine
end

