-- ==== Sys2Proof/Laws/Inbound.lean ====
section
/-! SUPPORT. What an arriving operation does: the command that brings it, and one that arrives in its turn (R258, R269). -/

namespace Sys2Proof.Machine

/-- The command that brings an operation lets it arrive as it is. -/
theorem arrival_runs {k : InstId} {o : InOp} {s : State} (h : o.formed) : exec (arrival k o) s = runInst k (Inst.arrive o) s := by
  obtain ⟨hdr, body⟩ := o
  obtain ⟨h1, h2⟩ := h
  have e : InOp.arrived hdr body = ⟨hdr, body⟩ := by
    simp only [InOp.arrived]
    rw [if_pos h1]
  cases body with
  | unlisted c =>
    have hc : 12 < c := h2 c rfl
    have h3 : hdr.opcode = c := h1
    have e2 : InOp.arrived hdr (.commit zeroCommit) = ⟨hdr, .unlisted c⟩ := by
      simp only [InOp.arrived]
      rw [if_neg (show hdr.opcode ≠ (OpBody.commit zeroCommit).code from fun h => absurd (h3.symm.trans h) (by simp only [OpBody.code]; omega)), h3]
    change runInst k (Inst.arrive (InOp.arrived hdr (.commit zeroCommit))) s = _
    rw [e2]
  | _ =>
    change runInst k (Inst.arrive (InOp.arrived hdr _)) s = _
    rw [e]

/-- A command whose header holds a code that no operation has brings an operation of that code. -/
theorem arrival_unlisted {k : InstId} {h : FabHdr} {b : OpBody} {s : State} (hc : 12 < h.opcode) :
    exec (arrival k ⟨h, b⟩) s = runInst k (Inst.arrive ⟨h, .unlisted h.opcode⟩) s := by
  have e : ∀ b : OpBody, b.code ≤ 12 → InOp.arrived h b = ⟨h, .unlisted h.opcode⟩ := by
    intro b hb
    simp only [InOp.arrived]
    rw [if_neg (by omega)]
  cases b <;> (change runInst k (Inst.arrive (InOp.arrived h _)) s = _) <;> rw [e _ (by simp [OpBody.code])]

/-- An operation in its turn, but a channel reset: applied and answered. -/
theorem Inst.arrive_in_turn {o : InOp} {i : Inst} (h : i.inTurn o) (hr : o.resets = false) (f : Inst → Inst × RespBody)
    (ha : (i.forgetPartial o).applyBody o = ((f (i.forgetPartial o)).1, some ((f (i.forgetPartial o)).2, 0))) :
    i.arrive o = i.applied o f := by
  obtain ⟨_, hcut, hp, hn, _, h1, h2, h3, hrec⟩ := h
  have r2 : (i.forgetPartial o).receive o.hdr o.body = none := hrec
  have c2 : ∀ h, (i.forgetPartial o).chan h = i.chan h := fun _ => rfl
  simp only [Inst.arrive, hp, Inst.arriveRunning, hcut, if_neg Bool.false_ne_true]
  have key : (i.forgetPartial o).arriveWhole o = (i.forgetPartial o).arriveChan o o.hdr.seq := by
    simp only [Inst.arriveWhole, c2, hn]
    cases hb : o.body <;> simp only []
    rename_i b
    cases hc : b.channelReset
    · simp
    · simp [InOp.resets, hb, OpBody.isReset, hc] at hr
  rw [key]
  have d0 : (o.hdr.seq + 2 ^ 32 - o.hdr.seq) % 2 ^ 32 = 0 := by
    omega
  have rp : (i.chan (hdrHome o.hdr)).ripe o = true := by
    simp only [Chan.ripe, hn, d0]
    rfl
  simp only [Inst.arriveChan, c2, d0, h1, h2, h3, rp]
  simp only [Inst.takeOp, r2, ha]
  rfl

end Sys2Proof.Machine
end

