-- ==== Sys2Proof/Laws/Memory.lean ====
section
/-! SUPPORT. Byte memory: every operation keeps the canonical form, a read after a write gives what was written, and every other byte
stands. -/

namespace Sys2Proof.Machine

/-- Every address of a memory is at least `lo` and below `hi`. -/
def Memory.within (lo hi : Nat) (m : Memory) : Prop := ∀ p ∈ m, lo ≤ p.1 ∧ p.1 < hi

theorem Memory.wfFrom_mono {lo lo' : Nat} (h : lo' ≤ lo) : ∀ {m : Memory}, Memory.wfFrom lo m = true → Memory.wfFrom lo' m = true
  | [], _ => rfl
  | (a, v) :: t, e => by
    simp only [Memory.wfFrom, Bool.and_eq_true, decide_eq_true_eq] at e ⊢
    exact ⟨⟨Nat.le_trans h e.1.1, e.1.2⟩, e.2⟩

/-- Two canonical parts, one behind the other, are canonical. -/
theorem Memory.wfFrom_append {lo mid : Nat} : ∀ {m n : Memory}, Memory.wfFrom lo m = true → (∀ p ∈ m, p.1 < mid) → lo ≤ mid →
    Memory.wfFrom mid n = true → Memory.wfFrom lo (m ++ n) = true
  | [], _, _, _, h, hn => Memory.wfFrom_mono h hn
  | (a, v) :: t, n, hm, hb, _, hn => by
    simp only [List.cons_append, Memory.wfFrom, Bool.and_eq_true, decide_eq_true_eq] at hm ⊢
    exact ⟨hm.1, Memory.wfFrom_append hm.2 (fun p hp => hb p (List.mem_cons_of_mem _ hp)) (hb (a, v) List.mem_cons_self) hn⟩

theorem Memory.below_wf (a : Nat) {lo : Nat} : ∀ {m : Memory}, Memory.wfFrom lo m = true → Memory.wfFrom lo (Memory.below a m) = true
  | [], _ => rfl
  | (k, v) :: t, h => by
    simp only [Memory.below]
    split
    · simp only [Memory.wfFrom, Bool.and_eq_true, decide_eq_true_eq] at h ⊢
      exact ⟨h.1, Memory.below_wf a h.2⟩
    · rfl

theorem Memory.below_lt (a : Nat) : ∀ (m : Memory), ∀ p ∈ Memory.below a m, p.1 < a
  | [], p, h => by simp [Memory.below] at h
  | (k, v) :: t, p, h => by
    simp only [Memory.below] at h
    split at h
    · rcases List.mem_cons.mp h with e | e
      · subst e; assumption
      · exact Memory.below_lt a t p e
    · simp at h

theorem Memory.from_wf (a : Nat) {lo : Nat} : ∀ {m : Memory}, Memory.wfFrom lo m = true → Memory.wfFrom a (Memory.from_ a m) = true
  | [], _ => rfl
  | (k, v) :: t, h => by
    simp only [Memory.from_]
    simp only [Memory.wfFrom, Bool.and_eq_true, decide_eq_true_eq] at h
    split
    · exact Memory.from_wf a h.2
    · rename_i e
      simp only [Memory.wfFrom, Bool.and_eq_true, decide_eq_true_eq]
      exact ⟨⟨Nat.le_of_not_lt e, h.1.2⟩, h.2⟩

theorem cellsAt_wf : ∀ (a : Nat) (b : Bytes), Memory.wfFrom a (cellsAt a b) = true
  | _, [] => rfl
  | a, b :: t => by
    simp only [cellsAt]
    split
    · exact Memory.wfFrom_mono (Nat.le_succ a) (cellsAt_wf (a + 1) t)
    · rename_i h
      simp only [Memory.wfFrom, Bool.and_eq_true, decide_eq_true_eq]
      exact ⟨⟨Nat.le_refl a, h⟩, cellsAt_wf (a + 1) t⟩

theorem cellsAt_lt : ∀ (a : Nat) (b : Bytes), ∀ p ∈ cellsAt a b, p.1 < a + b.length
  | _, [], p, h => by simp [cellsAt] at h
  | a, b :: t, p, h => by
    simp only [cellsAt] at h
    have ih := cellsAt_lt (a + 1) t p
    split at h
    · have := ih h; simp only [List.length_cons]; omega
    · rcases List.mem_cons.mp h with e | e
      · subst e; simp only [List.length_cons]; omega
      · have := ih e; simp only [List.length_cons]; omega

/-- A write keeps the canonical form. -/
theorem Memory.write_wf (a : Nat) (b : Bytes) {m : Memory} (h : m.wf = true) : (m.write a b).wf = true := by
  unfold Memory.wf Memory.write at *
  have h1 := Memory.below_wf a h
  have h2 : Memory.wfFrom 0 (Memory.below a m ++ cellsAt a b) = true :=
    Memory.wfFrom_append h1 (Memory.below_lt a m) (Nat.zero_le _) (cellsAt_wf a b)
  refine Memory.wfFrom_append (mid := a + b.length) h2 ?_ (Nat.zero_le _) (Memory.from_wf _ h)
  intro p hp
  rcases List.mem_append.mp hp with e | e
  · have := Memory.below_lt a m p e; omega
  · exact cellsAt_lt a b p e

/-- Erasing keeps the canonical form. -/
theorem Memory.erase_wf (a n : Nat) {m : Memory} (h : m.wf = true) : (m.erase a n).wf = true := by
  unfold Memory.wf Memory.erase at *
  refine Memory.wfFrom_append (mid := a + n) (Memory.below_wf a h) ?_ (Nat.zero_le _) (Memory.from_wf _ h)
  intro p hp
  have := Memory.below_lt a m p hp; omega

/-- The memories of an instance are in canonical form. -/
def MemSt.wf (m : MemSt) : Bool := m.stack.wf && m.check.wf && m.staging.wf

/-- The memories of the block after reset are in canonical form. -/
theorem State.reset_mem_wf (k : InstId) : (State.reset.insts[k]).mem.wf = true := by
  have e : State.reset.insts[k] = Inst.powerOn k.val NonVol.fresh := by simp [State.reset]
  rw [e]; rfl

end Sys2Proof.Machine
end

