-- ==== Sys2Proof/WellFormed.lean ====
section
/-! DEFINITION. Which commands are well formed: every operand fits the field the spec gives it. Operands the environment
supplies are what a port, the fabric or an initiator can carry (log entry 1). -/

namespace Sys2Proof

/-- A value fits a field of `n` bits. -/
def fits (n v : Nat) : Bool := decide (v < 2 ^ n)

/-- A home: 16 bits of node, 8 bits of home index (R4). -/
def Home.wf (h : Home) : Bool := fits 16 h.node && fits 8 h.idx

/-- A descriptor's fields (R167). -/
def GradDesc.wf (d : GradDesc) : Bool :=
  fits 8 d.kind && fits 8 d.ctx && fits 8 d.format && fits 8 d.flags && fits 32 d.layer && fits 64 d.range &&
    fits 48 d.step && fits 32 d.payloadBytes

/-- An item of GRAD_IN. -/
def GradItem.wf (g : GradItem) : Bool := g.desc.wf

/-- An upset lies in a slot of the managed region, a line of 64, a byte of 68; or in a word of the valid map (R60 to R62, R238). -/
def Upset.wf : Upset → Bool
  | .line a n pos _ => decide (a < 0x1780000) && decide (n < 64) && decide (pos < 68)
  | .corrected => true
  | .staging l => decide (l.line < 2 ^ 19)
  | .sram => true
  | .mapWord w => decide (w < 0x5E000)

/-- The operation codes (R258). -/
def listedCodes : List Nat := (List.range 13) ++ [0x10, 0x40]

/-- The common header (R256): of the operation whose code is given, or with a code that no operation has (R258). -/
def FabHdr.wf (code : Nat) (h : FabHdr) : Bool :=
  (h.opcode == code || (fits 8 h.opcode && !listedCodes.contains h.opcode)) && fits 8 h.ctx && fits 16 h.srcNode && fits 8 h.srcHome &&
    decide (h.granules ≤ 128) && fits 16 h.ctxTag && fits 32 h.mapVersion && fits 32 h.seq && fits 32 h.tag && fits 64 h.poison

/-- DELTA_XOR and SHADOW_PUT (R92). -/
def DeltaBody.wf (b : DeltaBody) : Bool :=
  fits 32 b.stripe && fits 32 b.row && fits 8 b.srcPos && fits 8 b.dstRole && fits 8 b.dstIndex && fits 8 b.count &&
    fits 16 b.mask && fits 32 b.step && fits 32 b.prev

/-- COMMIT (R93). -/
def CommitBody.wf (b : CommitBody) : Bool :=
  fits 32 b.stripe && fits 32 b.row && fits 8 b.srcPos && fits 8 b.dstRole && fits 8 b.dstIndex &&
    fits 16 b.mask && fits 32 b.step && fits 32 b.prev

/-- A ledger entry as far as it has arrived: of a put cut off by a loss, only the first granules (R94, R136). -/
def LedgerEntry.begun (e : LedgerEntry) : Bool :=
  fits 64 e.range && fits 48 e.step && fits 16 e.srcNode && fits 8 e.srcHome && fits 8 e.kind && fits 32 e.layer &&
    fits 8 e.format && fits 32 e.payloadBytes && decide (e.payload.length ≤ e.payloadBytes)

/-- A whole ledger entry (R94). -/
def LedgerEntry.wf (e : LedgerEntry) : Bool := e.begun && decide (e.payload.length = e.payloadBytes)

/-- LEDGER_RETIRE and LEDGER_READ (R95). -/
def RetireBody.wf (b : RetireBody) : Bool :=
  fits 64 b.range && fits 48 b.step && fits 32 b.layer && fits 8 b.kind && fits 16 b.scalarNode && fits 8 b.scalarHome

/-- FRAG_READ (R259). -/
def FragBody.wf (b : FragBody) : Bool :=
  fits 32 b.stripe && fits 32 b.row && fits 8 b.role && fits 8 b.index && fits 8 b.mode && fits 16 b.mask &&
    fits 32 b.version

/-- REBUILD_PUT (R149). -/
def RebuildBody.wf (b : RebuildBody) : Bool :=
  fits 32 b.stripe && fits 32 b.row && fits 8 b.srcPos && fits 8 b.dstRole && fits 8 b.dstIndex && fits 8 b.count &&
    fits 16 b.mask && fits 32 b.version && fits 32 b.prev

/-- CUTOVER (R154). -/
def CutoverBody.wf (b : CutoverBody) : Bool := fits 64 b.range && fits 48 b.step

/-- A re-emit request (R230). -/
def ReemitReq.wf (r : ReemitReq) : Bool :=
  fits 8 r.ctx && fits 32 r.layer && fits 64 r.firstRange && fits 32 r.rangeCount && fits 48 r.step

/-- DEGRADED (R121). -/
def DegradedBody.wf (b : DegradedBody) : Bool :=
  fits 32 b.imageVersion && b.detector.wf && b.entries.all (fun l => l.home.wf && fits 8 l.cause)

/-- MAP_HANDSHAKE (R261). -/
def HandshakeBody.wf (b : HandshakeBody) : Bool :=
  fits 32 b.imageVersion && fits 32 b.contract && fits 16 b.ctxTag && fits 32 b.epoch && fits 32 b.seqBase

/-- HEARTBEAT (R117). -/
def HeartbeatBody.wf (b : HeartbeatBody) : Bool :=
  fits 16 b.srcNode && fits 8 b.home && fits 8 b.state && fits 32 b.seq && fits 32 b.epoch

/-- The extension of a response: granules are 256 bytes long and no more than a row has (R260). -/
def RespExt.wf : RespExt → Bool
  | .none => true
  | .lostSet d => d.wf
  | .handshake h => h.wf
  | .frag version _ attr mask granules vector =>
    fits 32 version && fits 8 attr && fits 16 mask && granules.all (fun g => decide (g.length = 256)) &&
      decide (granules.length ≤ 16) && decide (vector.length ≤ 192) && vector.all (fun v => fits 32 v.version)
  | .floor _ v entry => fits 48 v && (match entry with | Option.some e => e.wf | Option.none => true)

/-- RESPONSE (R264). -/
def RespBody.wf (b : RespBody) : Bool :=
  fits 8 b.status && fits 8 b.reason && fits 8 b.info && fits 8 b.opcode && fits 16 b.retryAfter && b.ext.wf

/-- A payload of whole granules of 256 bytes (R256). -/
def granulesWf (l : List Bytes) : Bool := decide (l.length ≤ 128) && l.all (fun g => decide (g.length = 256))

/-- A register page: 0x00 to 0xFF (R295). -/
def pageWf (p : Nat) : Bool := fits 8 p

/-- An access of the window at a byte offset from its base: one word, or a narrower or misaligned access (R295, R296). -/
def accessWf (addr bytes : Nat) : Bool := fits 20 addr && decide (1 ≤ bytes) && decide (bytes ≤ 4)

/-- Every operand of the command fits its field. -/
def Instr.wf : Instr → Bool
  | .gradient _ g => g.wf && decide (g.desc.kind ≠ 1) && decide (g.desc.kind ≠ 2)
  | .endOfStep _ g => g.wf && decide (g.desc.kind = 1)
  | .norm _ g => g.wf && decide (g.desc.kind = 2)
  | .beatsWithoutDescriptor _ _ => true
  | .wake _ c => fits 8 c
  | .updateStart _ us => us.all Upset.wf
  | .updateWriteback _ => true
  | .emitRecordSend _ => true
  | .emitBackpressure _ _ => true
  | .codingQueueServe _ => true
  | .stepClose _ c s => fits 8 c && fits 48 s
  | .normLate _ c s => fits 8 c && fits 48 s
  | .refreshDone _ c l t => fits 8 c && fits 32 l && fits 32 t
  | .reemitRequest _ r => r.wf
  | .reemitServe _ => true
  | .deltaXor _ h b p => h.wf 0x00 && b.wf && granulesWf p
  | .shadowPut _ h b p => h.wf 0x01 && b.wf && granulesWf p
  | .commit _ h b => h.wf 0x02 && b.wf
  | .ledgerPut _ h e => h.wf 0x03 && e.begun
  | .ledgerRetire _ h b => h.wf 0x04 && b.wf
  | .ledgerRead _ h b => h.wf 0x05 && b.wf
  | .fragRead _ h b => h.wf 0x06 && b.wf
  | .rebuildPut _ h b p => h.wf 0x07 && b.wf && granulesWf p
  | .cutover _ h b => h.wf 0x08 && b.wf
  | .gradForward _ h e => h.wf 0x09 && e.wf
  | .reemitForward _ h r => h.wf 0x0A && r.wf
  | .degraded _ h b => h.wf 0x0B && b.wf
  | .mapHandshake _ h b => h.wf 0x0C && b.wf
  | .heartbeat _ b => b.wf
  | .response _ h b => h.opcode == 0x40 && h.wf 0x40 && b.wf
  | .fabricTimeout _ e => fits 13 e
  | .parkedChannelOffer _ p => p.wf
  | .offWaitOffer _ p => p.wf
  | .retryAfterExpiry _ _ => true
  | .joinExpiry _ c p => fits 8 c && p.wf
  | .routeNotice _ n _ => fits 16 n
  | .bandwidthNotice _ n f => fits 16 n && fits 16 f
  | .lossNotice _ n => fits 16 n
  | .lossCleared _ n => fits 16 n
  | .heartbeatSend _ => true
  | .silenceTimeout _ p => p.wf
  | .decodeDone _ _ => true
  | .rollForward _ c r => fits 8 c && fits 64 r
  | .vectorReread _ _ => true
  | .vectorAgreeTimeout _ _ => true
  | .offSourceReplan _ _ => true
  | .chunkRepairDone _ _ => true
  | .rowRepairDone _ _ => true
  | .hbmChannelFailure _ => true
  | .scrubLapStart _ => true
  | .scrubSlotRead _ r => r.upsets.all Upset.wf
  | .scrubLapDone _ ms => fits 32 ms
  | .lapLate _ => true
  | .scrubForced _ => true
  | .marginSample _ t v => fits 16 t && fits 16 v
  | .marginRestart _ => true
  | .selfTestDone _ nominal steps => (nominal :: steps).all (fun r => !r.isEmpty)
  | .warningEvaluation _ => true
  | .lifeRecordPeriodic _ => true
  | .poolRebuild _ => true
  | .dozeAfter _ => true
  | .napAfter _ => true
  | .powerStateGrant _ _ => true
  | .sleepEntryDone _ => true
  | .wakeDone _ => true
  | .wakeTimeout _ => true
  | .offRequest _ _ => true
  | .offDrainDone _ => true
  | .offDrain _ => true
  | .offRollbackDone _ => true
  | .offSaveDone _ => true
  | .offEntered _ => true
  | .returnRequest _ => true
  | .returnPowerUpDone _ => true
  | .returnStateRestored _ us => us.all Upset.wf
  | .returnTimeout _ => true
  | .imageDelivery _ _ m _ _ => decide (m.length ≤ 4096)
  | .programImageReplace _ m _ => decide (m.length ≤ 4096)
  | .diePowerOn => true
  | .dieWarmReset _ => true
  | .instanceReset _ => true
  | .pllLock => true
  | .sramClearDone _ => true
  | .pllLossOfLock => true
  | .emergencyShutdown _ => true
  | .mapLoad _ src => src.upsets.all Upset.wf
  | .mapCommit _ _ => true
  | .commitPoint _ c => fits 6 c
  | .rollbackDone _ c => fits 6 c
  | .releaseDone _ c => fits 6 c
  | .caravanSend _ => true
  | .cutoverSend _ c r => fits 6 c && fits 64 r
  | .cmdqPush _ _ => true
  | .paramLoad _ _ => true
  | .load _ => true
  | .coldLoad _ => true
  | .digestDump _ => true
  | .colonyCheck _ => true
  | .coldWrite _ => true
  | .eccTestWrite _ _ => true
  | .eccTestRead _ => true
  | .pcieReadCompletion _ _ _ _ => true
  | .nvmeCompletion _ _ _ => true
  | .guardTarget _ p _ => pageWf p
  | .guardA _ p _ => pageWf p
  | .guardTimeout _ p n => pageWf p && decide (n ≤ 8)
  | .resume _ => true
  | .pause _ => true
  | .evacuate _ => true
  | .evacuateEnd _ => true
  | .offline _ => true
  | .precedenceWindowClose _ c => fits 6 c
  | .instOffline _ => true
  | .instEvacuateSet _ => true
  | .instEvacuateClear _ => true
  | .cmdqFlush _ _ => true
  | .coldErase _ _ => true
  | .detLock _ => true
  | .muxEn _ _ => true
  | .lock _ p => pageWf p
  | .registerWrite _ a n _ => accessWf a n
  | .ringMtail _ p _ => pageWf p
  | .ringHtail _ p _ => pageWf p
  | .ringIndex _ p _ => pageWf p
  | .ologIndex _ p _ => pageWf p
  | .recIndex _ _ => true
  | .lostView _ _ => true
  | .chanSel _ _ => true
  | .normSel _ _ => true
  | .progSel _ _ => true
  | .paramSel _ _ => true
  | .paramData _ => true
  | .corrSel _ _ => true
  | .shareSel _ _ => true
  | .bufSel _ _ => true
  | .headSel _ _ => true
  | .lastSel _ _ => true
  | .emitLastData _ => true
  | .lastIndex _ _ => true
  | .telemLastData _ => true
  | .lifeData _ => true
  | .lifeAck _ _ => true
  | .epoch _ _ _ => true
  | .uscalarArm _ _ => true
  | .planFlush _ _ => true
  | .cntLo _ => true
  | .cntPresetHi _ _ _ => true
  | .freeze _ _ => true
  | .timeLo _ => true
  | .stepLo _ => true
  | .baseStepLo _ => true
  | .uactiveStepLo _ => true
  | .floorLo _ => true
  | .imageStepLo _ => true
  | .allocReq _ _ => true
  | .release _ _ => true
  | .sizeApply _ _ => true
  | .ctxMin _ _ => true
  | .mboxSend _ _ => true
  | .mboxPop _ _ => true
  | .jobGo _ go => go.placed.all (fun p => decide (p.1 + p.2.length ≤ 2 ^ 25))
  | .arrayJobDone _ b => decide (b < 4)
  | .stepSize _ _ => true
  | .stepTail _ _ => true
  | .sizes _ _ => true
  | .cplBaseHi _ _ => true
  | .reserveExhausted _ _ => true
  | .coldPriv _ _ => true
  | .txData _ _ => true
  | .rxData _ => true
  | .muartCtl _ _ => true
  | .muxSel _ _ => true
  | .pinHandover => true
  | .uartReceive _ _ => true
  | .bridgeRead => true
  | .bridgeWrite => true
  | .bridgeFrameTimeout => true
  | .gradInDescriptorPresented _ => true
  | .diePowerLoss => true
  | .aonClockStop => true
  | .uartTransmit => true

end Sys2Proof
end

