-- ==== Sys2Proof/Tests/Slice0.lean ====
section
/-! SUPPORT. Tests: ill-formed operands that the checks refuse, single steps against values the spec gives, and for every statement with
hypotheses a state and operands that meet them. -/

namespace Sys2Proof.Tests

open Sys2Proof Sys2Proof.Machine

set_option Elab.async false

/-! ### Small states -/

/-- A cold partition of no zones, and nothing recorded. -/
def nothing : NonVol :=
  { flash := LifeSt.none, flashRec := [],
    cold := { zones := [], tableSeq := 0, images := [], full := false, need := 0, lastCode := 0, lastKind := 0, nextSeq := 1, nvme := [] } }

/-- An instance that has reached READY and is ACTIVE. -/
def act : Inst := { Inst.powerOn 0 nothing with pw := { PowerSt.starting .ready with state := .active, ready := true } }

/-- An instance in another power state. -/
def inPower (p : PState) (i : Inst) : Inst := { i with pw := { i.pw with state := p } }

/-- A running die of node 7 whose instances are all as given. -/
def st (i : Inst) : State := { supply := .on, die := { Die.powerOn with node := 7 }, insts := Vector.replicate 8 i, pending := [] }

/-- A small image: one FP32 class, one layer of one range, homed at instance 0 of node 7 in a stripe of one data member whose local parity
and ledger are at node 9. -/
def lay : LayerRec := { id := 1, program := 5, tformat := 0x24, firstParam := 0, paramCount := 1024, paramBlock := 0 }
def img : MapImage :=
  { head := { contract := 0x10000, version := 0x100, bytes := 4096, ctx := 0, flags := 0, classCount := 1, depth := 4, clip := 0, passes := 9,
              baseStep := 10, seed := List.replicate 16 0, crc := 0 },
    classes := [{ id := 0, kind := 0, format := 0, prot := 0, role := 0 }], layers := [lay],
    homes := [{ home := ⟨7, 0⟩, level := 1, hops := 0 }, { home := ⟨9, 0⟩, level := 1, hops := 1 }],
    stripes := [{ id := 1, geom := { k := 1, g := 1, r := 0 }, rows := 1,
                  entries := [{ homeId := 0, role := 0 }, { homeId := 1, role := 1 }, { homeId := 1, role := 3 }] }],
    runs := [{ firstRange := 0, count := 1, cls := 0, transition := 0, homeId := 0, stripe := 1, position := 0, firstRow := 0, slotBase := 0 }],
    extents := [{ inst := 0, kind := 0, position := 0, stripe := 1, firstRow := 0, rowCount := 1, slotBase := 0 }], blocks := [], windows := [] }

/-- Context 0 LIVE with that image. -/
def ctx0 : CtxSt := { CtxSt.freeCtx with map := { CtxSt.freeCtx.map with state := 1, image := some img } }
def liveWith (f : CtxSt → CtxSt) : Inst := { act with ctxs := [(0, f ctx0)] }
def live0 : Inst := liveWith id

/-! ### Operands that are not well formed -/

def desc0 : GradDesc := { kind := 0, ctx := 0, format := 4, flags := 1, layer := 1, range := 0, step := 11, payloadBytes := 0, normSq := 0 }
def item0 : GradItem := { desc := desc0, beats := 0, payload := [], poisoned := false }
def hdr0 : FabHdr :=
  { opcode := 0x02, ctx := 0, srcNode := 9, srcHome := 0, granules := 0, ctxTag := 0, mapVersion := 0x100, seq := 5, tag := 3, flagged := false, message := false,
    retransmit := false, poison := 0 }

def delta0 : DeltaBody := { stripe := 1, row := 0, srcPos := 0, dstRole := 1, dstIndex := 0, count := 1, mask := 1, step := 11, prev := 10, first := false }
def commit0 : CommitBody :=
  { stripe := 1, row := 0, srcPos := 0, dstRole := 1, dstIndex := 0, first := false, reconstructed := false, mask := 1, step := 11, prev := 10, digest := 0 }
def entry0 : LedgerEntry :=
  { range := 0, step := 11, srcNode := 9, srcHome := 0, kind := 0, layer := 1, format := 4, incomplete := false, payloadBytes := 0, crc := 0, payload := [] }
def retire0 : RetireBody := { range := 0, step := 11, layer := 1, kind := 0, scalarNode := 0, scalarHome := 0 }
def frag0 : FragBody := { stripe := 1, row := 0, role := 0, index := 0, mode := 0, mask := 1, version := 10 }
def rebuild0 : RebuildBody :=
  { stripe := 1, row := 0, srcPos := 0, dstRole := 1, dstIndex := 0, count := 1, mask := 1, version := 11, prev := 10, full := false, probe := false,
    zero := false, reconstructed := false, shadowApprox := false, digest := 0 }
def cut0 : CutoverBody := { range := 0, step := 11, rangeDigest := 0, reconstructed := false }
def reemit0 : ReemitReq := { ctx := 0, layer := 1, firstRange := 0, rangeCount := 1, step := 11 }
def degraded0 : DegradedBody := { imageVersion := 0x100, detector := ⟨9, 0⟩, entries := [] }
def shake0 : HandshakeBody := { imageVersion := 0x100, contract := 0x10000, ctxTag := 0, channelReset := false, epoch := 1, seqBase := 5 }
def beat0 : HeartbeatBody := { srcNode := 9, home := 0, state := 0, seq := 1, epoch := 1 }
def resp0 : RespBody := { status := 0, reason := 0, info := 0, opcode := 1, retryAfter := 0, ext := .none }

theorem test_wf_home : (⟨7, 0⟩ : Home).wf = true ∧ [(⟨0x10000, 0⟩ : Home), ⟨7, 0x100⟩].all (fun h => !h.wf) = true := by decide
theorem test_wf_gradient : (Instr.gradient 0 item0).wf = true ∧
    [{ desc0 with kind := 1 }, { desc0 with kind := 2 }, { desc0 with kind := 256 }, { desc0 with ctx := 256 }, { desc0 with format := 256 },
     { desc0 with flags := 256 }, { desc0 with layer := 2 ^ 32 }, { desc0 with range := 2 ^ 64 }, { desc0 with step := 2 ^ 48 },
     { desc0 with payloadBytes := 2 ^ 32 }].all (fun d => !(Instr.gradient 0 { item0 with desc := d }).wf) = true := by decide
theorem test_wf_control : (Instr.endOfStep 0 { item0 with desc := { desc0 with kind := 1 } }).wf = true ∧ (Instr.endOfStep 0 item0).wf = false ∧
    (Instr.norm 0 { item0 with desc := { desc0 with kind := 2 } }).wf = true ∧ (Instr.norm 0 item0).wf = false := by decide
theorem test_wf_upset : (Instr.updateStart 0 [.line 0x177FFFF 63 67 1, .corrected, .staging ⟨.gradient 0 0 11, 2 ^ 19 - 1⟩, .sram, .mapWord 0x5DFFF]).wf = true ∧
    [(.line 0x1780000 0 0 1 : Upset), .line 0 64 0 1, .line 0 0 68 1, .staging ⟨.gradient 0 0 11, 2 ^ 19⟩, .mapWord 0x5E000].all
      (fun u => !(Instr.updateStart 0 [u]).wf && !(Instr.scrubSlotRead 0 ⟨[u], true⟩).wf && !(Instr.returnStateRestored 0 [u]).wf &&
        !(Instr.mapLoad 0 ⟨.error 1, [u]⟩).wf) = true := by decide
theorem test_wf_header : hdr0.wf 0x02 = true ∧ ({ hdr0 with opcode := 0x0D } : FabHdr).wf 0x02 = true ∧
    [{ hdr0 with opcode := 0x01 }, { hdr0 with opcode := 0x40 }, { hdr0 with opcode := 256 }, { hdr0 with ctx := 256 }, { hdr0 with srcNode := 2 ^ 16 }, { hdr0 with srcHome := 256 }, { hdr0 with granules := 129 },
     { hdr0 with ctxTag := 2 ^ 16 }, { hdr0 with mapVersion := 2 ^ 32 }, { hdr0 with seq := 2 ^ 32 }, { hdr0 with tag := 2 ^ 32 },
     { hdr0 with poison := 2 ^ 64 }].all (fun h => !h.wf 0x02) = true := by decide
theorem test_wf_delta : (Instr.deltaXor 0 { hdr0 with opcode := 0x00 } delta0 [List.replicate 256 0]).wf = true ∧
    (Instr.deltaXor 0 { hdr0 with opcode := 0x00 } delta0 [[0]]).wf = false ∧ granulesWf (List.replicate 129 (List.replicate 256 0)) = false ∧
    [{ delta0 with stripe := 2 ^ 32 }, { delta0 with row := 2 ^ 32 }, { delta0 with srcPos := 256 }, { delta0 with dstRole := 256 },
     { delta0 with dstIndex := 256 }, { delta0 with count := 256 }, { delta0 with mask := 2 ^ 16 }, { delta0 with step := 2 ^ 32 },
     { delta0 with prev := 2 ^ 32 }].all (fun b => !b.wf) = true := by decide +kernel
theorem test_wf_commit : commit0.wf = true ∧
    [{ commit0 with stripe := 2 ^ 32 }, { commit0 with row := 2 ^ 32 }, { commit0 with srcPos := 256 }, { commit0 with dstRole := 256 },
     { commit0 with dstIndex := 256 }, { commit0 with mask := 2 ^ 16 }, { commit0 with step := 2 ^ 32 }, { commit0 with prev := 2 ^ 32 }].all
      (fun b => !b.wf) = true := by decide
theorem test_wf_ledger : entry0.wf = true ∧ retire0.wf = true ∧
    [{ entry0 with range := 2 ^ 64 }, { entry0 with step := 2 ^ 48 }, { entry0 with srcNode := 2 ^ 16 }, { entry0 with srcHome := 256 },
     { entry0 with kind := 256 }, { entry0 with layer := 2 ^ 32 }, { entry0 with format := 256 }, { entry0 with payloadBytes := 2 ^ 32 },
     { entry0 with payload := [0] }].all (fun e => !e.wf) = true ∧
    [{ retire0 with range := 2 ^ 64 }, { retire0 with step := 2 ^ 48 }, { retire0 with layer := 2 ^ 32 }, { retire0 with kind := 256 },
     { retire0 with scalarNode := 2 ^ 16 }, { retire0 with scalarHome := 256 }].all (fun b => !b.wf) = true ∧
    ({ entry0 with payloadBytes := 1 } : LedgerEntry).begun = true ∧ ({ entry0 with payloadBytes := 1 } : LedgerEntry).wf = false ∧
    ({ entry0 with payload := [0] } : LedgerEntry).begun = false := by decide
theorem test_wf_frag : frag0.wf = true ∧ rebuild0.wf = true ∧ cut0.wf = true ∧ reemit0.wf = true ∧
    [{ frag0 with stripe := 2 ^ 32 }, { frag0 with row := 2 ^ 32 }, { frag0 with role := 256 }, { frag0 with index := 256 },
     { frag0 with mode := 256 }, { frag0 with mask := 2 ^ 16 }, { frag0 with version := 2 ^ 32 }].all (fun b => !b.wf) = true ∧
    [{ rebuild0 with stripe := 2 ^ 32 }, { rebuild0 with row := 2 ^ 32 }, { rebuild0 with srcPos := 256 }, { rebuild0 with dstRole := 256 },
     { rebuild0 with dstIndex := 256 }, { rebuild0 with count := 256 }, { rebuild0 with mask := 2 ^ 16 }, { rebuild0 with version := 2 ^ 32 },
     { rebuild0 with prev := 2 ^ 32 }].all (fun b => !b.wf) = true ∧
    [{ cut0 with range := 2 ^ 64 }, { cut0 with step := 2 ^ 48 }].all (fun b => !b.wf) = true ∧
    [{ reemit0 with ctx := 256 }, { reemit0 with layer := 2 ^ 32 }, { reemit0 with firstRange := 2 ^ 64 }, { reemit0 with rangeCount := 2 ^ 32 },
     { reemit0 with step := 2 ^ 48 }].all (fun b => !b.wf) = true := by decide
theorem test_wf_messages : degraded0.wf = true ∧ shake0.wf = true ∧ beat0.wf = true ∧
    [{ degraded0 with imageVersion := 2 ^ 32 }, { degraded0 with detector := ⟨2 ^ 16, 0⟩ }, { degraded0 with entries := [⟨⟨9, 0⟩, 256⟩] },
     { degraded0 with entries := [⟨⟨9, 256⟩, 1⟩] }].all (fun b => !b.wf) = true ∧
    [{ shake0 with imageVersion := 2 ^ 32 }, { shake0 with contract := 2 ^ 32 }, { shake0 with ctxTag := 2 ^ 16 }, { shake0 with epoch := 2 ^ 32 },
     { shake0 with seqBase := 2 ^ 32 }].all (fun b => !b.wf) = true ∧
    [{ beat0 with srcNode := 2 ^ 16 }, { beat0 with home := 256 }, { beat0 with state := 256 }, { beat0 with seq := 2 ^ 32 },
     { beat0 with epoch := 2 ^ 32 }].all (fun b => !b.wf) = true := by decide
theorem test_wf_response : resp0.wf = true ∧
    [{ resp0 with status := 256 }, { resp0 with reason := 256 }, { resp0 with info := 256 }, { resp0 with opcode := 256 },
     { resp0 with retryAfter := 2 ^ 16 }, { resp0 with ext := .lostSet { degraded0 with imageVersion := 2 ^ 32 } },
     { resp0 with ext := .handshake { shake0 with epoch := 2 ^ 32 } }, { resp0 with ext := .frag (2 ^ 32) 0 0 0 [] [] },
     { resp0 with ext := .frag 0 0 256 0 [] [] }, { resp0 with ext := .frag 0 0 0 (2 ^ 16) [] [] }, { resp0 with ext := .frag 0 0 0 0 [[0]] [] },
     { resp0 with ext := .frag 0 0 0 0 (List.replicate 17 (List.replicate 256 0)) [] },
     { resp0 with ext := .frag 0 0 0 0 [] (List.replicate 193 ⟨0, 0, false, false⟩) }, { resp0 with ext := .frag 0 0 0 0 [] [⟨2 ^ 32, 0, false, false⟩] },
     { resp0 with ext := .floor true (2 ^ 48) none }, { resp0 with ext := .floor true 0 (some { entry0 with kind := 256 }) }].all
      (fun b => !b.wf) = true := by decide +kernel
theorem test_wf_operands :
    [Instr.wake 0 256, .stepClose 0 256 0, .stepClose 0 0 (2 ^ 48), .normLate 0 256 0, .normLate 0 0 (2 ^ 48), .refreshDone 0 256 0 0,
     .refreshDone 0 0 (2 ^ 32) 0, .refreshDone 0 0 0 (2 ^ 32), .fabricTimeout 0 (2 ^ 13), .parkedChannelOffer 0 ⟨2 ^ 16, 0⟩, .offWaitOffer 0 ⟨0, 256⟩,
     .joinExpiry 0 256 ⟨9, 0⟩, .routeNotice 0 (2 ^ 16) true, .bandwidthNotice 0 0 (2 ^ 16), .lossNotice 0 (2 ^ 16), .lossCleared 0 (2 ^ 16),
     .silenceTimeout 0 ⟨2 ^ 16, 0⟩, .rollForward 0 256 0, .rollForward 0 0 (2 ^ 64), .scrubLapDone 0 (2 ^ 32), .marginSample 0 (2 ^ 16) 0,
     .marginSample 0 0 (2 ^ 16), .selfTestDone 0 [] [], .commitPoint 0 64, .rollbackDone 0 64, .releaseDone 0 64, .cutoverSend 0 64 0,
     .cutoverSend 0 0 (2 ^ 64), .precedenceWindowClose 0 64, .guardTarget .mgmt 256 0, .guardA .mgmt 256 0, .guardTimeout .mgmt 256 0,
     .guardTimeout .mgmt 0 9, .lock .mgmt 256, .registerWrite .mgmt (2 ^ 20) 4 0, .registerWrite .mgmt 0 0 0, .registerWrite .mgmt 0 5 0,
     .ringMtail .mgmt 256 0, .ringHtail .mgmt 256 0, .ringIndex .mgmt 256 0, .ologIndex .mgmt 256 0, .arrayJobDone 0 4, .jobGo .host ⟨0, [(2 ^ 25, [0])]⟩].all (fun c => !c.wf) = true := by
  decide

/-! ### Steps against the spec's own values -/

/-- R79, R234, R228: the coefficient table, the check value and the generator's test vector. -/
theorem test_coefficients : coef 1 0 = 0x7F ∧ coef 4 1 = 0x86 ∧ coef 2 23 = 0xFA := by decide +kernel
theorem test_digest_check_value : crc64 [0x31, 0x32, 0x33, 0x34, 0x35, 0x36, 0x37, 0x38, 0x39] = 0x6C40DF5F0B497347 := by decide +kernel
theorem test_generator_vector : genMix 0 0 1 0 0 = 0x14323CC3 := by decide +kernel
theorem test_queue_order : step { st act with pending := [.uartTransmit, .bridgeRead] } = .next { st act with pending := [.bridgeRead] } := by rfl
theorem test_stopped_engine : exec (.wake 0 0) { st act with supply := .stopped } = .fault .engineStopped := by rfl
/-- R305: the highest rank present applies; a repeat is logged. -/
theorem test_window_rank : (((liveWith (fun c => { c with run := { c.run with window := some [(1, 0), (2, 1)] } })).windowClose 0).ctx 0).run.paused = true := by
  decide +kernel
/-- R303: 64 cycles after GUARD_A the sequence is still good, 65 cycles after it is not. -/
theorem test_guard_window : (Guard.fault 0x12 64 (~~~1) { target := 0x100, valueA := some 1, timeA := 0 }) = none ∧
    (Guard.fault 0x12 65 (~~~1) { target := 0x100, valueA := some 1, timeA := 0 }) = some 1 := by decide +kernel
/-- R117: EPOCH is one higher after a reset. -/
theorem test_reset_epoch : (act.reset 0 true).hb.epoch = 1 := by rfl
/-- R22: an item that is taken is pending work of its range. -/
theorem test_gradient_pending : ((({ live0 with memb := { live0.memb with incoming := [(0, 0)] } } : Inst).acceptGrad 0 img lay desc0 [] false).opt.work.map
    (fun w => (w.step, w.stage))) = [(11, .pending)] := by decide +kernel
/-- R302: the ring holds at most one entry less than its size. -/
theorem test_ring_tail : ({ entries := [], head := 5, mtail := 3, htail := 0, dropped := 0 } : Ring).setTail 1024 true 5 =
    ({ entries := [], head := 5, mtail := 5, htail := 0, dropped := 0 }, true) ∧
    (({ entries := [], head := 5, mtail := 3, htail := 0, dropped := 0 } : Ring).setTail 1024 true 6).2 = false := by decide +kernel

/-! ### The spec's worked examples -/

/-- The chapter of the code family, preset 24/8/2 with members 9, 10, 11 and 17 written. -/
def preset : Geom := { k := 24, g := 8, r := 2 }
def coded : Nat → Bytes := fun i => [match i with | 9 => 0x3C | 10 => 0xA5 | 11 => 0x71 | 17 => 0x5E | _ => 0]
theorem test_parities : [Pos.local_ 0, .local_ 1, .local_ 2, .global 1, .global 2].map (fun p => encodeParity preset p coded 1) =
    [[0x00], [0xE8], [0x5E], [0xF5], [0x41]] := by decide +kernel
theorem test_plan_single : decodePlan preset [.data 10] = some { localFix := [10], unknowns := [], pivots := [], inverse := [] } ∧
    repairLocal preset (fun p => match p with | .data i => coded i | _ => [0xE8]) 10 = [0xA5] := by decide +kernel
theorem test_plan_pair : (decodePlan preset [.data 9, .data 10]).map (fun p => (p.unknowns, p.pivots, (planReads preset [.data 9, .data 10] p).length)) =
    some ([9, 10], [.local_ 1, .global 1], 24) := by decide +kernel
theorem test_plan_triple : (decodePlan preset [.data 9, .data 10, .local_ 1]).map (fun p =>
    (p.pivots, solveUnknowns p [[0x7A], [0x68]] 1)) = some ([.global 1, .global 2], [(9, [0x3C]), (10, [0xA5])]) := by decide +kernel
theorem test_plan_four : (decodePlan preset [.data 0, .data 1, .data 9, .data 10]).map (fun p => (planReads preset [] p).isEmpty) = some false := by
  decide +kernel
/-- The chunk record of slot 0x10290A (the chapter of the coding map). -/
theorem test_record_place : 64 * recLine 0x10290A + recByte 0x10290A = 0x17698290A0 := by decide
/-- The element of the shadow chapter, 3.0e-6 in binary32, under the block header 0x76. -/
theorem test_shadow : shadowByte 4 0x76 0x3649539C = 0x56 := by decide +kernel
/-- The three encoded instructions of the adaptive-moment program. -/
theorem test_program_words :
    (let i := pinstrOf 0x0408221080000000
     i.op = 4 ∧ i.d = 1 ∧ i.a = 0 ∧ i.b = 17 ∧ i.fB = true ∧ i.c = 1 ∧ i.p = 0) ∧
    (let i := pinstrOf 0x4B0A800000000000
     i.op = 0x4B ∧ i.d = 1 ∧ i.a = 10 ∧ i.imm = 0) ∧
    (let i := pinstrOf 0x2100C00300000000
     i.op = 0x21 ∧ i.a = 3 ∧ i.p = 1 ∧ i.pn = true ∧ i.imm = 0) := by decide
/-- The group of the accumulation example. -/
theorem test_accumulate : dotProduct false 0x4B800000 ([(0x3C, 0x40), (0x01, 0x38), (0x7E, 0x30)].map (fun p =>
    (wholeOperand (scaleElem 1 0x7F (e4m3Val p.1)), wholeOperand (scaleElem 1 0x80 (e4m3Val p.2))))) = 0x4B8000E3 := by decide +kernel
/-- Block 6 of the transport example in E2M1, rounded to nearest and with the test vector's draw; block 9 in E4M3. -/
def e2m1 : Elem := ⟨some 1, -1, 0x7, 4⟩
def e4m3 : Elem := ⟨some 3, -9, 0x7E, 8⟩
theorem test_block_codes : elemOf 5 = some e2m1 ∧ elemOf 1 = some e4m3 ∧
    scaleExp e2m1 (3, -6) = -7 ∧ overRatio e2m1 (3, -6) (1, -8) = false ∧
    [(3, -6), (1, -8), (5, -9)].map (fun v => (encodeLane e2m1 false 0 (-7) (.fin false v.1 v.2)).1) = [7, 1, 2] ∧
    (encodeLane e2m1 true 0x14323CC3 (-7) (.fin false 5 (-9))).1 = 3 ∧ overRatio e2m1 (3, -6) (3, -10) = true ∧
    scaleExp e4m3 (3, -6) = -13 ∧
    [(3, -6), (3, -10)].map (fun v => (encodeLane e4m3 false 0 (-13) (.fin false v.1 v.2)).1) = [0x7C, 0x5C] := by decide +kernel

/-! ### Hypotheses met -/

/-- What the witnesses start from. -/
def work0 : Work :=
  { ctx := 0, q := 0, step := 11, layer := 1, format := 4, flags := 1, payload := [], stage := .pending, place := .ingress, clipAt := 0, putsDue := [],
    putSent := true, resend := false, coded := false, emitted := false, retired := false }
def incoming0 : Inst := { live0 with memb := { live0.memb with incoming := [(0, 0)] } }
def flight0 (l : Option Home) : Flight :=
  { ctx := 0, step := 11, layer := 1, ranges := [0], tformat := 0x24, newChunks := [], standin := l, tile := none }

theorem witness_GradientAccepted :
    let i := ((st incoming0).seen 0).startFlag
    i.gradTaken item0 ∧ i.gradHomed desc0 img lay ∧ i.appliedStep 0 0 = ((i.appliedStep 0 0).1, (i.appliedStep 0 0).2) ∧
      (i.appliedStep 0 0).1.gradNew desc0 img (i.appliedStep 0 0).2 ∧ ((i.appliedStep 0 0).1.ctx 0).run.halted.contains 1 = false ∧
      gradWellFormed 4 img.width 0 [] = true ∧ (i.appliedStep 0 0).1.stepClosed 0 11 = false :=
  ⟨⟨by decide +kernel, by decide +kernel, by decide +kernel, rfl⟩,
   ⟨by decide +kernel, by decide +kernel, by decide +kernel, by decide +kernel, by decide +kernel, by decide +kernel, by decide +kernel⟩, rfl,
   ⟨by decide +kernel, fun w h => absurd (h.symm.trans (show Inst.workOf _ _ _ _ = none by decide +kernel)) (by simp)⟩, by decide +kernel,
   by decide +kernel, by decide +kernel⟩

theorem witness_GradientDiscarded :
    ((st act).seen 0).startFlag.gradTaken item0 ∧ ((st act).seen 0).startFlag.image 0 = none ∧
    (let i := ((st incoming0).seen 0).startFlag
     i.gradHomed { desc0 with step := 10 } img lay ∧ (10 : Nat) ≤ (i.appliedStep 0 0).2.getD img.head.baseStep) ∧
    (let i := ((st { liveWith (fun c => { c with run := { c.run with halted := [1] } }) with memb := incoming0.memb }).seen 0).startFlag
     i.gradHomed desc0 img lay ∧ (i.appliedStep 0 0).1.gradNew desc0 img (i.appliedStep 0 0).2 ∧
       ((i.appliedStep 0 0).1.ctx 0).run.halted.contains 1 = true) ∧
    (((st incoming0).seen 0).startFlag.gradTaken { item0 with poisoned := true } ∧ ({ item0 with poisoned := true } : GradItem).poisoned = true) :=
  ⟨⟨by decide +kernel, by decide +kernel, by decide +kernel, rfl⟩, by decide +kernel,
   ⟨⟨by decide +kernel, by decide +kernel, by decide +kernel, by decide +kernel, by decide +kernel, by decide +kernel, by decide +kernel⟩, by decide +kernel⟩,
   ⟨⟨by decide +kernel, by decide +kernel, by decide +kernel, by decide +kernel, by decide +kernel, by decide +kernel, by decide +kernel⟩,
    ⟨by decide +kernel, fun w h => absurd (h.symm.trans (show Inst.workOf _ _ _ _ = none by decide +kernel)) (by simp)⟩, by decide +kernel⟩,
   ⟨by decide +kernel, by decide +kernel, by decide +kernel, rfl⟩, rfl⟩

theorem taken_of {g : GradItem} {i : Inst} (h : i.pw.state = .active) (r : gradFramed g = true ∧ (i.ctx g.desc.ctx).live = true ∧
    (i.ctx g.desc.ctx).memb.fenced = false ∧ (i.ctx g.desc.ctx).memb.offline = false ∧ stepInRange (i.ctx g.desc.ctx).run.step g.desc.step = true) :
    i.controlTaken g := ⟨h, r⟩
theorem witness_GradInControlItems :
    (let i := (st live0).seen 0
     i.controlTaken { item0 with desc := { desc0 with kind := 1, format := 0, layer := 0, flags := 0 } } ∧ i.image 0 = some img ∧
       i.atBase 0 11 = false ∧ i.atBase 0 10 = true ∧ (i.ctx 0).run.normSeen.contains 11 = false ∧ i.stepClosed 0 11 = false ∧ (i.ctx 0).run.endSteps.any (fun e => e.1 = 11) = false ∧
       i.controlTaken { item0 with desc := { desc0 with kind := 2, format := 0, layer := 0, flags := 0 } } ∧
       i.pw.state = .active ∧ i.opt.stray = false) ∧
    (let i := (st live0).seen 0
     i.controlTaken { item0 with desc := { desc0 with kind := 1, format := 0, layer := 0, flags := 0, step := 10 } } ∧ i.controlTaken { item0 with desc := { desc0 with kind := 2, format := 0, layer := 0, flags := 0, step := 10 } }) ∧
    (let i := (st (liveWith (fun c => { c with run := { c.run with normSeen := [11] } }))).seen 0
     i.controlTaken { item0 with desc := { desc0 with kind := 2, format := 0, layer := 0, flags := 0 } } ∧ (i.ctx 0).run.normSeen.contains 11 = true) ∧
    ((st { act with opt := { act.opt with stray := true } }).seen 0).opt.stray = true ∧
    (∀ p, p = PState.doze ∨ p = PState.nap → ((st (inPower p act)).seen 0).pw.state = p ∧ ((st (inPower p act)).seen 0).pw.entering = none) :=
  ⟨⟨taken_of rfl (by decide +kernel), by decide +kernel, by decide +kernel, by decide +kernel, by decide +kernel, by decide +kernel, by decide +kernel,
    taken_of rfl (by decide +kernel), rfl, rfl⟩,
   ⟨taken_of rfl (by decide +kernel), taken_of rfl (by decide +kernel)⟩, ⟨taken_of rfl (by decide +kernel), by decide +kernel⟩,
   rfl, fun _ _ => ⟨rfl, rfl⟩⟩

/-- A step that has ended with nothing open, and one whose work awaits its norm. -/
def ended0 (f : CtxRun → CtxRun) : Inst := liveWith (fun c => { c with run := f { c.run with endSteps := [(11, 0)], step := 11 } })
theorem witness_StepClosing :
    (let i := (st (ended0 id)).seen 0
     i.image 0 = some img ∧ i.running = true ∧ i.mayClose 0 11 = true ∧ i.mayClose 0 12 = false ∧ i.awaitsNorm 0 11 = false) ∧
    (let i := (st { ended0 id with opt := { act.opt with work := [work0] } }).seen 0
     i.awaitsNorm 0 11 = true ∧ (i.ctx 0).run.normLate.contains 11 = false) := by decide +kernel

/-- A layer whose parameter block asks for tiles that the map's classes do not give: its first update is decided at once. -/
def tiled0 : Inst :=
  { live0 with opt := { act.opt with work := [work0], layerOrder := [(0, 1, 11)],
                                     params := [(0, (List.replicate 20 0) ++ [1, 0x505, 1, 1, 1, 1] ++ List.replicate 6 0)] },
               boot := { act.boot with programs := [{ id := 5, scalars := false, precond := false, classMask := 1, code := [], crc := 0 }] },
               pool := act.pool.thread }
theorem witness_UpdatesRun :
    ((st act).seen 0).running = true ∧ (((st act).seen 0).upsets [.line 0 0 0 1]).running = true ∧ ((st act).seen 0).opt.flights = [] ∧
    (let i := (st tiled0).seen 0
     i.running = true ∧ (i.upsets []).startOrder = [(0, 11, 0)] ∧ (match i.tryUnit 0 11 0 with | .done _ => true | .waits _ => false) = true) ∧
    (let i := (st { live0 with opt := { act.opt with flights := [flight0 none] } }).seen 0
     i.opt.flights = [flight0 none] ∧ i.image 0 = some img ∧ (flight0 none).standin = none) ∧
    (let i := (st { live0 with opt := { act.opt with flights := [flight0 (some ⟨8, 0⟩)] } }).seen 0
     i.opt.flights = [flight0 (some ⟨8, 0⟩)] ∧ i.image 0 = some img ∧ (flight0 (some ⟨8, 0⟩)).standin = some ⟨8, 0⟩) ∧
    (flight0 none).tile.any (fun _ => true) = false ∧
    (∀ l ∈ [none, some (⟨8, 0⟩ : Home)], ∀ q ∈ [[], [ArrWork.tile 0 1 0 11]],
      let f : Flight := { flight0 l with tile := some 0 }
      let i := (st { live0 with opt := { act.opt with flights := [f] }, arr := { act.arr with queue := q } }).seen 0
      i.opt.flights = [f] ∧ i.image 0 = some img ∧ f.standin = l ∧
        f.tile.any (fun n => i.arrHolds (.tile f.ctx f.layer n f.step)) = !q.isEmpty) := by decide +kernel

def chunk0 : ChunkId := { ctx := 0, cls := 0, q := 0, k := 0 }
theorem witness_WritebackRecordsChunk : (((st live0).seen 0).chunkSlot chunk0).isSome = true := by decide +kernel

def built0 : Built := { ctx := 0, q := 0, step := 11, layer := 1, bytes := List.replicate 64 0, counts := [], standin := none }
theorem witness_EmitSends :
    (let i := (st { act with emit := { act.emit with waiting := [built0] } }).seen 0
     i.running = true ∧ i.emit.stopped = false ∧ i.emit.reemit = [] ∧ i.emit.waiting.find? (fun b => i.sendable b) = some built0 ∧
       built0.standin = none) ∧
    (let i := (st { act with emit := { act.emit with waiting := [built0], reemit := [reemit0] } }).seen 0
     i.running = true ∧ i.emit.stopped = false ∧ i.emit.reemit = [reemit0]) ∧
    ((st { act with emit := { act.emit with stopped := true } }).seen 0).emit.stopped = true := by decide +kernel

/-- An instance with that many re-emit requests waiting. -/
def asking (n : Nat) : Inst := { act with emit := { act.emit with reemit := List.replicate n reemit0 } }
/-- A stand-in of a home whose lost set is saturated, with a request for what it serves. -/
def frozen0 : Inst :=
  { liveWith (fun c => { c with memb := { c.memb with saturated := true } }) with
    emit := { act.emit with reemit := [reemit0] },
    memb := { act.memb with moving := [{ ctx := 0, q := 0, dst := ⟨9, 0⟩, standin := some ⟨8, 0⟩, slots := [], sent := [], probe := false, full := [],
                                         owed := [], unacked := 0, cutSent := false, attempts := 0, faulted := false }] } }
theorem witness_ReemitQueue :
    (∀ n ∈ [0, 62], ((st (asking n)).seen 0).emit.reemit.length < 63 ∧ ((st (asking n)).seen 0).pw.state = .active) ∧
    (((st (asking 63)).seen 0).emit.reemit.length = 63 ∧ ((st (asking 63)).seen 0).pw.state = .active) ∧
    64 ≤ ((st (asking 64)).seen 0).emit.reemit.length ∧
    (∀ p ∈ [PState.doze, .nap], ∀ n ∈ [0, 63], ∀ e ∈ [none, some p], let i := (st { asking n with pw := { act.pw with state := p, entering := e } }).seen 0
      i.emit.reemit.length < 64 ∧ i.pw.state = p ∧ i.pw.entering = e) ∧
    (∀ r ∈ [reemit0, { reemit0 with rangeCount := 2 }],
      let i := (st { live0 with emit := { act.emit with reemit := [r] } }).seen 0
      i.running = true ∧ i.emit.stopped = false ∧ i.emit.reemit = [r] ∧ 1 ≤ r.rangeCount ∧
        (match i.answerRange r r.firstRange with | .answer _ _ => true | _ => false) = true) ∧
    (let i := (st frozen0).seen 0
     i.running = true ∧ i.emit.stopped = false ∧ i.emit.reemit = [reemit0] ∧
       (match i.answerRange reemit0 0 with | .waits _ => true | _ => false) = true) ∧
    ((st { act with emit := { act.emit with stopped := true } }).seen 0).emit.stopped = true ∧ ((st (inPower .doze act)).seen 0).running = false ∧
    ((st act).seen 0).emit.reemit = [] := by decide +kernel

/-- A record of the chunk that owes its delta to the parity at node 9, in staging or spilled. -/
def rec0 (at_ : Option Nat) : Backlog :=
  { id := 1, chunk := chunk0, srcPos := 0, step := 11, prev := 10, digest := 0, mask := 0, delta := [], shadow := none, tformat := 0x24,
    isLoad := false, spillAt := at_, recon := false,
    owes := [{ frag := { stripe := 1, row := 0, role := 1, index := 0 }, home := ⟨9, 0⟩, first := false, sent := 0 }] }
def owing (at_ : Option Nat) : Inst := { live0 with cod := { act.cod with backlog := [rec0 at_] } }
/-- The same layer with a refresh of its one tile in progress. -/
def refresh0 : Refresh := { ctx := 0, layer := 1, tile := 0, due := 11, done := false, held := false, lf := [], rf := [] }
theorem witness_CodingServes :
    (let i := (st (owing none)).seen 0
     i.running = true ∧ roundRobin i.cod.lastHolder i.oweHomes = some ⟨9, 0⟩ ∧ (i.nextOwe ⟨9, 0⟩).map Prod.fst = some (rec0 none)) ∧
    (let i := (st (owing (some 0))).seen 0
     i.running = true ∧ roundRobin i.cod.lastHolder i.oweHomes = some ⟨9, 0⟩ ∧ (i.nextOwe ⟨9, 0⟩).map Prod.fst = some (rec0 (some 0)) ∧
       (i.readSpilled (rec0 (some 0))).running = true) ∧
    roundRobin ((st act).seen 0).cod.lastHolder ((st act).seen 0).oweHomes = none ∧
    (let i := (st { tiled0 with opt := { tiled0.opt with refreshes := [refresh0] } }).seen 0
     i.image 0 = some img ∧ img.layer 1 = some lay ∧ (i.paramBlock 0 lay.paramBlock).isSome = true ∧
       i.opt.refreshes.find? (fun r => decide (r.ctx = 0) && decide (r.layer = 1) && decide (r.tile = 0) && !r.done) = some refresh0 ∧
       i.arrHolds (.refresh 0 1 0 11) = false) ∧
    (let i := (st { tiled0 with opt := { tiled0.opt with refreshes := [refresh0] }, arr := { act.arr with queue := [.refresh 0 1 0 11] } }).seen 0
     i.image 0 = some img ∧
       i.opt.refreshes.find? (fun r => decide (r.ctx = 0) && decide (r.layer = 1) && decide (r.tile = 0) && !r.done) = some refresh0 ∧
       i.arrHolds (.refresh 0 1 0 11) = true) := by
  decide +kernel

/-- A channel of the home 9.0 whose next operation is the fifth. -/
def chan0 : Chan :=
  { peer := ⟨9, 0⟩, outSeq := 0, resetDue := false, parked := false, offWait := false, inNext := some 5, answered := [], deferred := [], record := [],
    waiting := [] }
/-- An instance whose context 0 has matched maps with that home. -/
def turn0 : Inst :=
  { liveWith (fun c => { c with memb := { c.memb with matchIn := [⟨9, 0⟩], matchOut := [⟨9, 0⟩] } }) with
    fab := { act.fab with chans := [chan0] }, pool := act.pool.thread }
def ops0 : List OpBody :=
  [.unlisted 0x0D, .unlisted 0x41, .delta delta0 [], .shadow delta0 [], .commit commit0, .ledgerPut entry0, .ledgerRetire retire0, .ledgerRead retire0, .rebuildPut rebuild0 [],
   .cutover cut0, .gradForward entry0, .reemitForward reemit0, .degraded degraded0, .handshake shake0,
   .fragRead frag0, .fragRead { frag0 with mode := 1, role := 1 }, .fragRead { frag0 with mode := 1, role := 3 },
   .fragRead { frag0 with mode := 2, role := 1 }, .fragRead { frag0 with mode := 2, role := 2 }]
/-- An operation as it comes; a sanity check of its header. -/
def comes (h : FabHdr) (b : OpBody) : InOp := { hdr := { h with opcode := b.code }, body := b }
def formedB (o : InOp) : Bool := decide (o.hdr.opcode = o.body.code) && (match o.body with | .unlisted c => decide (12 < c) | _ => true)
theorem formed_of {o : InOp} (h : formedB o = true) : o.formed := by
  simp only [formedB, Bool.and_eq_true, decide_eq_true_eq] at h
  refine ⟨h.1, fun c hc => ?_⟩
  have := h.2
  rw [hc] at this
  exact of_decide_eq_true this
def frags0 : List FragBody :=
  [frag0, { frag0 with mode := 1, role := 1 }, { frag0 with mode := 1, role := 3 }, { frag0 with mode := 2, role := 1 }, { frag0 with mode := 2, role := 2 }]
theorem witness_OperationsApplied :
    (∀ b ∈ ops0, ((st turn0).seen 0).inTurn (comes hdr0 b)) ∧ shake0.channelReset = false ∧
    (∀ b ∈ frags0, ((((st turn0).seen 0).forgetPartial (comes hdr0 (.fragRead b))).holderFrag 0 b).2.isSome = true) := by
  refine ⟨fun b hb => ⟨formed_of ((by decide +kernel : ∀ b ∈ ops0, formedB (comes hdr0 b) = true) b hb), ?_⟩, by decide +kernel, by decide +kernel⟩
  revert b
  decide +kernel

def op0 : InOp := comes hdr0 (.commit commit0)
def reset0 : HandshakeBody := { shake0 with channelReset := true }
def put0 (n : Nat) : InOp := comes hdr0 (.ledgerPut { entry0 with payloadBytes := n })
/-- A front end that holds that many operations and has refused one. -/
def kept (p : PState) (n : Nat) : Inst :=
  { inPower p act with fab := { act.fab with frontEnd := ⟨op0, true⟩ :: List.replicate n ⟨op0, false⟩ } }
theorem witness_OperationsAdmitted :
    (∀ o ∈ [op0, put0 1, comes hdr0 (.handshake reset0)], formedB o = true) ∧
    (let i := (st turn0).seen 0
     let o := comes hdr0 (.handshake reset0)
     i.pw.state = .active ∧ reset0.channelReset = true ∧ ((i.forgetPartial o).resetChan (hdrHome o.hdr) reset0.seqBase).receive o.hdr (.handshake reset0) = none) ∧
    (let i := (st act).seen 0
     i.pw.state = .active ∧ op0.resets = false ∧ op0.body.cut = false ∧ (i.chan ⟨9, 0⟩).inNext = none) ∧
    ((put0 1).body.cut = true ∧ (put0 0).body.cut = false) ∧
    (∀ p ∈ [PState.doze, .nap], ∀ n ∈ [0, 63, 64, 65], let i := (st (kept p n)).seen 0
      i.pw.state = p ∧ (i.fab.frontEnd.filter (fun b => !b.refused)).length = n) ∧
    (∀ p ∈ [PState.goingOff, .off, .restoring, .starting, .resetting, .faulted], ((st (inPower p act)).seen 0).pw.state = p) := by decide +kernel

/-- The same channel with another operation of the fabric, `d` ahead of the next one. -/
def ahead (d : Nat) : InOp := comes { hdr0 with seq := 5 + d } (.commit commit0)
/-- A pool with no buffer for anyone. -/
def noRoom : Inst := { turn0 with pool := { act.pool with active := [] } }
theorem witness_SequenceWindow :
    (∀ d ∈ [64, 2 ^ 31 - 1], ((ahead d).hdr.seq + 2 ^ 32 - 5) % 2 ^ 32 = d ∧ ((st turn0).seen 0).pw.state = .active ∧
      (((st turn0).seen 0).chan ⟨9, 0⟩).inNext = some 5 ∧ (((st turn0).seen 0).chan ⟨9, 0⟩).answered.contains (5 + d) = false) ∧
    (∀ d ∈ [1, 63], ((ahead d).hdr.seq + 2 ^ 32 - 5) % 2 ^ 32 = d ∧ (((st turn0).seen 0).chan ⟨9, 0⟩).ripe (ahead d) = false ∧
      formedB (ahead d) = true ∧ (ahead d).resets = false ∧ (ahead d).body.cut = false ∧
      ((st turn0).seen 0).receive (ahead d).hdr (ahead d).body = none ∧ ((st turn0).seen 0).ctxRoom 0 1 256 = true ∧
      (((st noRoom).seen 0).chan ⟨9, 0⟩).inNext = some 5 ∧ (((st noRoom).seen 0).chan ⟨9, 0⟩).ripe (ahead d) = false ∧
      ((st noRoom).seen 0).receive (ahead d).hdr (ahead d).body = none ∧ ((st noRoom).seen 0).ctxRoom 0 1 256 = false) ∧
    (let i := (st { act with fab := turn0.fab }).seen 0
     (i.receive (ahead 1).hdr (ahead 1).body).isSome = true ∧ (i.chan ⟨9, 0⟩).ripe (ahead 1) = false) := by decide +kernel

/-- An entry of the completion table, in slot 3 with generation 0, that has been sent that often again. -/
def cpl0 (n : Nat) : CplEntry :=
  { gen := 0, seq := 5, tries := n, version := 0x100,
    op := { id := 1, dst := ⟨9, 0⟩, ctx := 0, body := .commit commit0, owner := .retire, share := 1, poison := 0, held := false } }
def asked0 (n : Nat) (c : Chan) : Inst := { act with fab := { act.fab with cpl := [(3, cpl0 n)], chans := [c] } }
theorem witness_AnswersMatched :
    (∀ p ∈ [PState.active, .doze, .nap, .goingOff], let i := (st (inPower p (asked0 0 chan0))).seen 0
      i.pw.state = p ∧ i.fab.cpl.find (hdr0.tag % 2 ^ 13) = some (cpl0 0) ∧ (cpl0 0).gen = hdr0.tag / 2 ^ 13 ∧
        i.fab.cpl.find ((3 + 2 ^ 13) % 2 ^ 13) = some (cpl0 0) ∧ (cpl0 0).gen ≠ (3 + 2 ^ 13) / 2 ^ 13) ∧
    ((st act).seen 0).fab.cpl.find (hdr0.tag % 2 ^ 13) = none ∧
    (∀ p ∈ [PState.off, .restoring, .starting, .resetting, .faulted], ((st (inPower p act)).seen 0).pw.state = p) := by decide +kernel

def late0 : OutOp := { (cpl0 0).op with id := 4 }
def offer0 : OutOp := { late0 with body := .handshake reset0, owner := .offer }
def offered0 (n : Nat) (c : Chan) : Inst := { act with fab := { act.fab with cpl := [(3, { cpl0 n with op := offer0 })], chans := [c] } }
theorem witness_FabricTimers :
    (∀ n ∈ [0, 2, 3], let i := (st (asked0 n chan0)).seen 0
      i.running = true ∧ i.fab.cpl.find 3 = some (cpl0 n) ∧ (cpl0 n).tries = n ∧ (i.chan ⟨9, 0⟩).parked = false ∧ (i.chan ⟨9, 0⟩).offWait = false) ∧
    (∀ c ∈ [{ chan0 with parked := true }, { chan0 with offWait := true }], ∀ n ∈ [0, 2, 3], let i := (st (asked0 n c)).seen 0
      let j := (st (offered0 n c)).seen 0
      i.running = true ∧ i.fab.cpl.find 3 = some (cpl0 n) ∧ ((i.chan ⟨9, 0⟩).parked || (i.chan ⟨9, 0⟩).offWait) = true ∧ (cpl0 n).op.body.isReset = false ∧
        j.running = true ∧ j.fab.cpl.find 3 = some { cpl0 n with op := offer0 } ∧ ((j.chan ⟨9, 0⟩).parked || (j.chan ⟨9, 0⟩).offWait) = true ∧
        offer0.body.isReset = true ∧ (cpl0 n).tries = n) ∧
    ((st (asked0 0 chan0)).seen 0).fab.cpl.find 4 = none ∧
    (((st (asked0 0 { chan0 with parked := true })).seen 0).chan ⟨9, 0⟩).parked = true ∧
    (((st (asked0 0 { chan0 with offWait := true })).seen 0).chan ⟨9, 0⟩).offWait = true ∧
    ((st { act with fab := { act.fab with retry := [late0] } }).seen 0).fab.retry.find? (fun o => o.id = 4) = some late0 ∧ late0.owner = .retire ∧
    (let i := (st { act with fab := { act.fab with retry := [offer0] } }).seen 0
     i.fab.retry.find? (fun o => o.id = 4) = some offer0 ∧ offer0.owner = .offer ∧ i.matched 0 ⟨9, 0⟩ = false) := by
  decide +kernel

def partner0 (e : Option Nat) : Partner := { home := ⟨9, 0⟩, epoch := e, armed := true, lost := false }
def watching (e : Option Nat) : Inst := { act with hb := { act.hb with partners := [partner0 e] } }
theorem witness_PartnersWatched :
    (∀ e ∈ [none, some 1, some 2], let i := (st (watching e)).seen 0
      i.watches = true ∧ i.running = true ∧ i.partnerNode 9 = true ∧ i.partnerNode 8 = false ∧
        i.hb.partners.find? (fun p => p.home = ⟨9, 0⟩) = some (partner0 e) ∧ (partner0 e).armed = true ∧ (partner0 e).lost = false ∧
        i.hb.partners.any (fun p => decide (p.home = ⟨9, 0⟩) && p.armed && !p.lost) = true ∧
        i.hb.partners.any (fun p => decide (p.home = ⟨8, 0⟩) && p.armed && !p.lost) = false) ∧
    beat0.state ≠ 5 ∧ beat0.epoch = 1 ∧ ({ beat0 with state := 5 } : HeartbeatBody).state = 5 ∧ (2 : Nat) ≠ beat0.epoch := by decide +kernel

/-- A decode of the chunk at stripe 1, row 0, whose bytes are in hand. -/
def row0 : RowJob :=
  { target := { stripe := 1, row := 0, role := 0, index := 0 }, chunk := chunk0, lost := [], off := [], tried := [], asked := [], got := [], full := false,
    done := some (10, [], false), failed := none }
def job0 (kind : JobKind) (phase : Nat) : Job :=
  { id := 1, ctx := 0, kind := kind, rows := [row0], phase := phase, ledger := [], floorSeen := none, mended := [], queued := false }
def serving (j : Job) : Inst := { live0 with flt := { act.flt with jobs := [j] } }
/-- The same stripe with its data at node 9 and its local parity here; and a repair of the parity row. -/
def imgP : MapImage :=
  { img with homes := [{ home := ⟨9, 0⟩, level := 1, hops := 1 }, { home := ⟨7, 0⟩, level := 1, hops := 0 }],
             extents := [{ inst := 0, kind := 1, position := 0, stripe := 1, firstRow := 0, rowCount := 1, slotBase := 0 }] }
def frag1 : FragId := { stripe := 1, row := 0, role := 1, index := 0 }
def rowP : RowJob := { row0 with target := frag1, done := none }
def servingP : Inst :=
  { liveWith (fun c => { c with map := { c.map with image := some imgP } }) with
    flt := { act.flt with jobs := [{ job0 (.rowRepair frag1 [0] false) 0 with rows := [rowP] }] } }
theorem witness_FaultServiceJobs :
    (let j := job0 (.standin ⟨9, 0⟩ 0) 0
     let i := (st (serving j)).seen 0
     let a := (i.settleRows 0 j.rows).1.putJob { j with rows := (i.settleRows 0 j.rows).2 }
     i.running = true ∧ i.job 1 = some j ∧ j.isDecode = true ∧ j.queued = false ∧ j.phase = 0 ∧ i.arrHolds (.decode 1) = false ∧ (a.advanceJob 1).job 1 = some j ∧ (a.advanceJob 1).image 0 = some img ∧
       j.rows.all (fun r => r.done.isSome || r.failed.isSome) = true) ∧
    (let j := job0 (.standin ⟨9, 0⟩ 0) 3
     let i := (st (serving j)).seen 0
     (i.ctx 0).memb.saturated = false ∧ (i.ctx 0).memb.fenced = false ∧ i.rollJob 0 0 = some j ∧ (i.settleRoll 1).job 1 = some j ∧
       (i.settleRoll 1).image 0 = some img ∧ j.standinOf = some (⟨9, 0⟩, 0)) ∧
    (∀ a ∈ [{ act.arr with queue := [.decode 1] }, { act.arr with parked := some (.decode 1) }],
      ((st { serving (job0 (.standin ⟨9, 0⟩ 0) 0) with arr := a }).seen 0).arrHolds (.decode 1) = true) ∧
    (∀ kind ∈ [JobKind.chunkRepair 0 0 false, .shadowRepair 0 0], let i := (st (serving (job0 kind 0))).seen 0
     i.running = true ∧ i.job 1 = some (job0 kind 0) ∧ (job0 kind 0).rows = [row0] ∧ (job0 kind 0).kind = kind ∧ i.arrHolds (.decode 1) = false) ∧
    (let i := (st servingP).seen 0
     (i.job 1).map (fun j => j.rows) = some [rowP] ∧ i.arrHolds (.decode 1) = false ∧ rowP.failed = none ∧ i.rowReady 0 rowP = true ∧
       (i.heldRow 0 frag1).isSome = true ∧ (i.geomOf 0 1).isSome = true) := by decide +kernel
/-- A lap in progress. -/
def lapping (f : ScrubSt → ScrubSt) : Inst := { act with scrub := f { act.scrub with running := true } }
theorem witness_ScrubLaps :
    (∀ p ∈ [PState.active, .goingOff, .doze, .nap], let i := (st (inPower p act)).seen 0
      i.pw.ready = true ∧ i.scrub.running = false ∧ i.pw.state = p) ∧
    (let i := (st (lapping (fun c => { c with phase := 1 }))).seen 0
     let j := i.upsets [.line 0 0 0 1]
     i.scrub.running = true ∧ j.running = true ∧ j.scrub.running = true ∧ j.scrub.phase ≠ 0 ∧ (j.lapNext j.scrub.phase j.scrub.slot).isSome = true ∧
       i.scrub.late = false ∧ i.scrub.forced = false ∧ i.pw.state ≠ .off ∧ i.pw.state ≠ .restoring) ∧
    (let j := ((st (lapping (fun c => { c with phase := 5, slot := Slot.ledgerEnd }))).seen 0).upsets []
     j.running = true ∧ j.scrub.running = true ∧ j.scrub.phase ≠ 0 ∧ j.lapNext j.scrub.phase j.scrub.slot = none) ∧
    (let i := (st (lapping (fun c => { c with phase := 0 }))).seen 0
     i.scrub.running = true ∧ i.scrub.phase = 0 ∧ (i.upsets []).scrub.phase = 0 ∧ i.pw.state ≠ .off ∧ i.pw.state ≠ .restoring) ∧
    (∀ p ∈ [PState.off, .restoring], ((st (inPower p (lapping id))).seen 0).pw.state = p) := by decide +kernel

theorem witness_HealthTasks :
    (∀ p ∈ [PState.active, .goingOff, .doze, .nap], let i := (st (inPower p act)).seen 0
      i.pw.ready = true ∧ i.arr.sampling = false ∧ i.pw.state = p ∧ i.reg 0x20 0x140 0xE10 ≠ 0) ∧
    ((st { act with ctl := act.ctl.store 0 0x20 0x140 0 }).seen 0).reg 0x20 0x140 0xE10 = 0 ∧
    (let i := (st { act with arr := { act.arr with sampling := true, restart := true } }).seen 0
     i.arr.sampling = true ∧ i.arr.restart = true ∧ i.flt.jobs = []) ∧
    (testPasses [(1, 1)] = true ∧ testPasses [(1, 1), (1, 0)] = false ∧ testPasses [] = true) ∧
    (let i := (st { act with pw := PowerSt.starting .selfTest }).seen 0
     i.pw.state = .starting ∧ i.pw.start = .selfTest ∧ i.arrHolds .selfTest = false) ∧
    (let i := (st { act with pw := { act.pw with trialTest := true } }).seen 0
     i.pw.state = .active ∧ i.pw.trialTest = true ∧ i.arrHolds .selfTest = false) ∧
    (let i := (st { act with arr := { act.arr with sampling := true } }).seen 0
     i.pw.state = .active ∧ i.pw.trialTest = false ∧ i.arr.sampling = true ∧ i.arr.restart = false ∧ i.arrHolds .selfTest = false) ∧
    ((st { act with arr := { act.arr with queue := [.selfTest] } }).seen 0).arrHolds .selfTest = true ∧
    (let i := (st { act with pool := act.pool.thread }).seen 0
     i.pool.threaded = true ∧ i.running = true ∧ i.pw.state ≠ .off ∧ i.pw.state ≠ .restoring) ∧
    (∀ q ∈ [[], [ArrWork.submitted 1 1]],
      let j : ArrJob := { state := 2, reason := 0, a := 0, b := 65536, outA := 131072, six := false, work := 2, serial := 1 }
      let i := (st { act with arr := { act.arr with jobs := [(1, j)], queue := q } }).seen 0
      i.arr.jobs.find 1 = some j ∧ j.work = 2 ∧ i.running = true ∧ i.arrHolds (.submitted 1 j.serial) = !q.isEmpty) := by decide +kernel
/-- Classes of work for the scheduler's statement: a decode comes before all else, then tiles. -/
def class0 : ArrWork → Nat
  | .decode _ => 1
  | .tile _ _ _ _ => 2
  | _ => 4
theorem witness_HealthTasks_array :
    (let a : ArrSt := { act.arr with run := some .selfTest, queue := [.decode 1] }
     a.run = some .selfTest ∧ a.queue.find? (fun w => class0 w == 1) = some (.decode 1) ∧ a.parked = none ∧ class0 .selfTest ≠ 1) ∧
    (let a : ArrSt := { act.arr with parked := some .selfTest }
     a.run = none ∧ a.queue.find? (fun w => class0 w == 1) = none ∧ a.parked = some .selfTest) ∧
    (let a : ArrSt := { act.arr with queue := [.selfTest, .tile 0 1 0 11] }
     a.run = none ∧ a.queue.find? (fun w => class0 w == 1) = none ∧ a.parked = none ∧ a.queue.find? (fun w => class0 w == 2) = some (.tile 0 1 0 11)) ∧
    (let a : ArrSt := { act.arr with run := some .selfTest, queue := [.tile 0 1 0 11] }
     a.run = some .selfTest ∧ a.queue.find? (fun w => class0 w == 1) = none) := by decide +kernel

theorem witness_WarningMeasures : 5 ≤ act.telem.life.mins.length := by decide +kernel

/-- An instance that has a request before the die's power controller, or is part way into or out of sleep. -/
def powered (p : PState) (f : PowerSt → PowerSt) : Inst := { act with pw := f { act.pw with state := p } }
theorem witness_SleepStates :
    (let i := (st act).seen 0
     i.pw.state = .active ∧ i.pw.request = none ∧ 1 ≤ i.deepest ∧ i.idle = true ∧ i.pw.entering = none) ∧
    ((st (asking 1)).seen 0).idle = false ∧
    (let i := (st (inPower .doze act)).seen 0
     i.pw.state = .doze ∧ i.pw.request = none ∧ i.pw.entering = none ∧ i.pw.waking = false ∧ 2 ≤ i.deepest) ∧
    ((st { act with ctl := act.ctl.store 0 0x10 0x100 0x01100032 }).seen 0).deepest < 2 ∧
    (∀ p ∈ [PState.doze, .nap], ((st (powered .active (fun w => { w with request := some p }))).seen 0).pw.request = some p ∧
      ((st (powered p (fun w => { w with entering := some p }))).seen 0).pw.entering = some p) := by decide +kernel

/-- The die with its PLL locked or not. -/
def pllSt (b : Bool) (i : Inst) : State := { st i with die := { (st i).die with pll := b } }
theorem witness_WakeEnds :
    (∀ p ∈ [PState.doze, .nap], let s := pllSt true (powered p (fun w => { w with waking := true }))
      (s.seen 0).pw.state = p ∧ (s.seen 0).pw.waking = true ∧ s.die.pll = true ∧ (s.seen 0).ctl.stalled = [] ∧ (s.seen 0).pw.state ≠ .faulted) ∧
    ((st act).seen 0).pw.waking = false ∧ (pllSt false act).die.pll = false ∧
    (act.drainFrontEnd.pw.offFromReq = false ∧ (powered .active (fun w => { w with offFromReq := true })).drainFrontEnd.pw.offFromReq = true) := by
  decide +kernel

theorem witness_SelfFaultState : act.pw.state ≠ .faulted := by decide +kernel

theorem witness_OffTransition :
    (let i := (st act).seen 0
     i.pw.state = .active ∧ i.offCode false = 0 ∧ i.offCode true = 0) ∧
    ((st live0).seen 0).offCode false ≠ 0 ∧
    (let i := (st (inPower .faulted act)).seen 0
     i.pw.state = .faulted ∧ i.offCode true ≠ 0) ∧
    (∀ p ∈ [PState.doze, .nap], ((st (inPower p act)).seen 0).pw.state = p) ∧
    (∀ f ∈ [OffPhase.drain, .rollback, .save, .entering], let i := (st (powered .goingOff (fun w => { w with offPhase := f }))).seen 0
      i.pw.state = .goingOff ∧ i.pw.offPhase = f ∧ i.drained = true ∧ i.pw.returnDue = false) ∧
    (let i := (st (powered .goingOff (fun w => { w with offPhase := .entering, returnDue := true }))).seen 0
     i.pw.offPhase = .entering ∧ i.pw.returnDue = true) := by decide +kernel

/-- Upsets of three symbols of one line of context 0's saved state, which the line code does not mend. -/
def worn : List Upset := [.line (Slot.mapRegion + 1024) 0 0 1, .line (Slot.mapRegion + 1024) 0 1 1, .line (Slot.mapRegion + 1024) 0 2 1]
def restoring (f : OffPhase) : Inst := powered .restoring (fun w => { w with offPhase := f })
def restored (us : List Upset) : Bool :=
  let j := ((st (restoring .state)).seen 0).upsets us
  let v := j.readSpill (j.mem.spill.getD [])
  let p := j.saved.getD { ctxs := [], params := [], regs := [] }
  let live := (p.ctxs.filter (fun c => c.2.live)).map Prod.fst
  (((saveArea 0 :: live.map saveArea) ++ live.map (fun x => (mapCopySlot x * 4096, 4194304))).foldl
    (fun (a : Inst × Bool) (p : Nat × Nat) => let r := a.1.readSpan false p.1 p.2; (r.1, a.2 && r.2)) (v.1, true)).2
theorem witness_OffReturn :
    (∀ p ∈ [PState.off, .goingOff, .active, .restoring], ((st (inPower p act)).seen 0).pw.state = p) ∧
    (let s := pllSt true (restoring .power)
     (s.seen 0).pw.state = .restoring ∧ (s.seen 0).pw.offPhase = .power ∧ s.die.pll = true) ∧
    ((pllSt false act).die.pll = false ∧ ((st (restoring .state)).seen 0).pw.offPhase ≠ .power) ∧
    (let i := (st (restoring .image)).seen 0
     i.pw.state = .restoring ∧ i.pw.offPhase = .image ∧ (i.offerPrograms true []).2 = true ∧ (i.offerPrograms false []).2 = false) ∧
    (let i := (st (restoring .selfTest)).seen 0
     i.pw.state = .restoring ∧ i.pw.offPhase = .selfTest ∧ i.arrHolds .selfTest = false) ∧
    (∀ us ∈ [[], worn], (((st (restoring .state)).seen 0).upsets us).pw.state = .restoring ∧ (((st (restoring .state)).seen 0).upsets us).pw.offPhase = .state ∧
      (((st act).seen 0).upsets us).pw.state ≠ .restoring) ∧
    restored [] = true ∧ restored worn = false := by decide +kernel

/-- A package of two empty sections, with the SHA-384 of the empty string as the standard gives it. -/
def emptySha : Bytes :=
  (natLe 48 0x38B060A751AC96384CD9327EB1B1E36A21FDB71114BE07434C0CC7BF63F6E1DA274EDEBFE76F65FBD51AD2F14898B95B).reverse
def man0 : Bytes := natLe 4 0x4D49504A ++ natLe 4 0x00010000 ++ List.replicate 12 0 ++ emptySha ++ emptySha ++ List.replicate 140 0
def flash0 (a : SlotState) : FlashView := { slotA := a, slotB := .erased, boot := { activeB := false, tryNext := none, trialUsed := false } }
theorem test_package : packageOk man0 [] [] = true ∧ progHashOk man0 [] = true ∧ packageOk man0 [] [0] = false := by decide +kernel
theorem witness_StartUp :
    (∀ p ∈ [PState.starting, .resetting], let i := (st (powered p (fun w => { w with start := .sram }))).seen 0
      i.pw.state = p ∧ i.pw.start = .sram) ∧
    (let i := (st (powered .starting (fun w => { w with start := .image }))).seen 0
     i.pw.state = .starting ∧ i.pw.start = .image ∧ (i.decideBoot (flash0 .verified)).2 = true ∧ (i.decideBoot (flash0 .erased)).2 = false) ∧
    (let i := (st (restoring .image)).seen 0
     i.pw.state = .restoring ∧ i.pw.offPhase = .image ∧ (i.offerPrograms true []).2 = true ∧ (i.offerPrograms false []).2 = false) ∧
    (∀ p ∈ [PState.active, .doze, .nap], ((st (inPower p act)).seen 0).pw.state = p) := by decide +kernel

theorem witness_ResetsAndSupply : (st act).supply = .on ∧ { st act with supply := .off }.supply = .off ∧ { st act with supply := .stopped }.supply ≠ .off := by
  decide +kernel

/-- An instance with a command descriptor at the front of its queue: opcode, argument and further words, for context 0. -/
def descr0 (op arg : Nat) (ws : List Word) : Descr := { init := 1, words := w32 (2 ^ 22 * op + arg) :: ws }
def queued (d : Descr) (i : Inst) : Inst := { i with cmdq := { i.cmdq with queue := [d] }, pool := act.pool.thread }
def dMap : Descr := descr0 1 0 [64, 0, 0]
def inState (n : Nat) (r : Option MapImage) (slot : Nat) : Inst :=
  liveWith (fun c => { c with map := { c.map with state := n, staged := r, slot := slot } })
theorem witness_MapsChange :
    (let i := (st (queued dMap live0)).seen 0
     i.startable 1 = some dMap ∧ dMap.arg.testBit 0 = false) ∧
    ((st live0).seen 0).startable 1 = none ∧
    (∀ f ∈ [0, 2], let n : MapImage := { img with head := { img.head with flags := f } }
      let i := (st (inState 1 (some n) 2)).seen 0
      i.running = true ∧ (i.ctx 0).map.slot = 2 ∧ (i.ctx 0).map.staged = some n ∧ i.opt.flights.any (fun f => f.ctx = 0) = false ∧
        n.release = decide (f = 2)) ∧
    (let i := (st (liveWith (fun c => { c with memb := { c.memb with rollback := true } }))).seen 0
     i.running = true ∧ (i.ctx 0).memb.rollback = true) ∧
    (let i := (st (inState 2 none 0)).seen 0
     i.running = true ∧ (i.ctx 0).map.state = 2) := by decide +kernel

theorem witness_ReleaseFrees : (inState 2 none 0).running = true ∧ ((inState 2 none 0).ctx 0).map.state = 2 := by decide +kernel

def push0 : Push := { id := 1, chunk := chunk0, frag := frag1, home := ⟨9, 0⟩, pos := 0, recon := false, sent := false }
def moving0 (l : List ChunkId) : Moving :=
  { ctx := 0, q := 0, dst := ⟨9, 0⟩, standin := none, slots := [(chunk0, 0)], sent := l, probe := false, full := [], owed := [], unacked := 0,
    cutSent := false, attempts := 0, faulted := false }
def mover (l : List ChunkId) : Inst := { live0 with memb := { act.memb with moving := [moving0 l] } }
theorem witness_MembershipSends :
    (let i := (st { live0 with memb := { act.memb with pushes := [push0] } }).seen 0
     i.running = true ∧
       i.memb.pushes.find? (fun p => !p.sent && i.caravanMay p.chunk.ctx && !isLost (i.ctx p.chunk.ctx).memb.lost p.home) = some push0) ∧
    (let i := (st (mover [])).seen 0
     i.running = true ∧ i.memb.pushes = [] ∧ i.nextMoving = some (moving0 []) ∧ i.image 0 = some img ∧ i.movingOf 0 0 = some (moving0 []) ∧
       i.cutReady img (moving0 []) = false) ∧
    (let i := (st (mover [chunk0])).seen 0
     i.movingOf 0 0 = some (moving0 [chunk0]) ∧ i.cutReady img (moving0 [chunk0]) = true ∧ (i.cutRecs img (moving0 [chunk0])).2 = some [ChunkRec.zero]) ∧
    (((st (liveWith (fun c => { c with run := { c.run with window := some [(1, 0)] } }))).seen 0).ctx 0).run.window = some [(1, 0)] ∧
    (((st live0).seen 0).ctx 0).run.window = none := by decide +kernel

def dParam : Descr := descr0 2 0 [0, 0]
def dLoad (arg : Nat) : Descr := descr0 3 arg [0, 0, 1, 10, 0, 0]
def block0 (w29 : Word) : List Word := List.replicate 22 0 ++ [1, 1, 1, 1, 0, 0, 0, w29, 0, 0]
/-- R182: the limits of the PC words hold without PRECOND, those of the tile under PRECOND. -/
theorem test_params_limits : paramsOk (block0 0) = true ∧ paramsOk (List.replicate 32 0) = false ∧
    [(22, 65535), (23, 0), (24, 2), (25, 65), (20, 1)].map (fun p => paramsOk ((block0 0).set p.1 p.2)) = [false, false, false, false, false] ∧
    [(0x0404 : Word), 0x0505, 0x0808, 0x0809, 0x0908].map (fun t => paramsOk (((block0 0).set 20 1).set 21 t)) = [false, true, true, false, false] ∧
    paramsOk ((((block0 0).set 22 65535).set 23 65535).set 24 65535) = true := by decide
/-- A LOAD in progress whose one chunk is being read. -/
def loading0 : Running := { Running.fresh (dLoad 0) with serial := 1, chunks := [{ id := chunk0, addr := 0, phase := .reading }] }
theorem witness_HostLoads :
    (let i := (st (queued dParam live0)).seen 0
     i.startable 2 = some dParam ∧ paramsOk (block0 0) = true ∧ paramsOk (block0 1) = false ∧ i.takeCmd.opt.waits.contains (0, 3, 0) = false) ∧
    (let i := (st (queued (dLoad 0) live0)).seen 0
     i.running = true ∧ i.startable 3 = some (dLoad 0) ∧ (dLoad 0).isCold = false) ∧
    (let i := (st { live0 with cmdq := { act.cmdq with running := [loading0] } }).seen 0
     i.running = true ∧ i.cmd 1 = some loading0 ∧ loading0.chunks[0]? = some { id := chunk0, addr := 0, phase := .reading } ∧ loading0.cold = none) := by
  decide +kernel

def dDump : Descr := descr0 4 0 [1, 0, 0]
def dCheck : Descr := descr0 5 0 [1, 0, 1]
def dTest (op : Nat) : Descr := descr0 op 0 [0, 0, 0]
/-- An instance with no context whose ECC test is enabled. -/
def testing : Inst := { act with ctl := act.ctl.store 0 0x1C 0x018 1 }
theorem witness_HostChecks :
    (let i := (st (queued dDump live0)).seen 0
     i.startable 4 = some dDump ∧ i.takeCmd.image dDump.ctx = some img ∧
       img.layer (bits (dDump.word 1) 30 0 + 2 ^ 31 * bits dDump.arg 3 3) = some lay ∧ (img.cls (bits dDump.arg 2 0)).isSome = true) ∧
    ((st (queued dCheck live0)).seen 0).startable 5 = some dCheck ∧
    (∀ op ∈ [7, 8], let i := (st (queued (dTest op) testing)).seen 0
      i.startable op = some (dTest op) ∧ i.takeCmd.testRefused (dTest op).testSlot = false) ∧
    (∀ op ∈ [7, 8], let i := (st (queued (dTest op) live0)).seen 0
      i.startable op = some (dTest op) ∧ i.takeCmd.testRefused (dTest op).testSlot = true) := by decide +kernel

def dCold : Descr := descr0 6 0 [0]
def image0 : ColdImage := { ctx := 0, seq := 1, step := 10, chunks := 1, zones := [2] }
/-- A cold partition of sixteen zones with one image, and the commands its drive completes. -/
def coldSt (l : List NvCmd) : ColdSt :=
  { nothing.cold with zones := List.replicate 16 (Zone.fresh 0), tableSeq := 1, images := [image0], nvme := l }
def granted (i : Inst) : State :=
  let s := st i
  { s with die := { s.die with coldPriv := [0] } }
def coldRun (op : Nat) : Running :=
  let c : ColdRun := { stage := .readHeader, seq := 1, step := 10, chunks := 1, zones := [2], pieces := [], next := 0, crc := 0, index := [] }
  { Running.fresh (descr0 op 8 [0, 0, 1, 10, 0, 0]) with serial := 1, cold := some c }
theorem witness_ColdTier :
    (let i := (granted (queued (dLoad 8) { live0 with cold := coldSt [] })).seen 0
     i.running = true ∧ i.startable 3 = some (dLoad 8) ∧ (dLoad 8).isCold = true ∧ i.takeCmd.view.coldPriv.contains 0 = true ∧
       i.takeCmd.cold.usable = true ∧ i.takeCmd.cold.images.find? (fun m => m.ctx = 0) = some image0) ∧
    (let i := (granted (queued dCold { liveWith (fun c => { c with run := { c.run with paused := true } }) with cold := coldSt [] })).seen 0
     i.running = true ∧ i.startable 6 = some dCold ∧ i.takeCmd.cold.tableSeq ≠ 0 ∧ (i.takeCmd.coldWriteCode dCold).1 = 0) ∧
    (∀ op ∈ [3, 6], ∀ last ∈ [true, false],
      let i := (st { live0 with cold := coldSt [⟨some 1, last⟩], cmdq := { act.cmdq with running := [coldRun op] } }).seen 0
      i.cold.nvme = [⟨some 1, last⟩] ∧ (some 1).bind (Inst.cmd { i with cold := { i.cold with nvme := [] } }) = some (coldRun op) ∧
        (coldRun op).cold.isSome = true ∧ (coldRun op).descr.op = op) ∧
    ((st act).seen 0).cold.nvme = [] := by decide +kernel

/-! ### Accesses that are taken -/

def busB (init : Initiator) (s : State) : Bool :=
  decide (s.supply = .on) && !initStalled init s.insts && decide (s.die.target init = 0) && decide ((s.insts[(0 : InstId)]).pw.state = .active)
def takenB (init : Initiator) (locks : List Nat) (page off : Nat) (w : Word) : Bool :=
  allowed init false page off true &&
    (match regSpec page off with | some r => decide (r.acc ≠ .rwg) && !(r.rwl && locks.contains page) && r.inRange (w.toNat &&& r.mask) | none => false)
theorem busTo_of {init : Initiator} {s : State} (h : busB init s = true) : s.busTo init 0 := by
  simp only [busB, Bool.and_eq_true, decide_eq_true_eq, Bool.not_eq_true'] at h
  exact ⟨h.1.1.1, h.1.1.2, h.1.2, h.2⟩
theorem writeTaken_of {init : Initiator} {t : Bool} {l : List Nat} {page off : Nat} {w : Word} (ht : t = false)
    (h : takenB init l page off w = true) : writeTaken init t l page off w := by
  subst ht
  simp only [takenB, Bool.and_eq_true] at h
  refine ⟨h.1, ?_⟩
  cases hr : regSpec page off with
  | none => rw [hr] at h; exact absurd h.2 (by simp)
  | some r =>
    rw [hr] at h
    simp only [Bool.and_eq_true, decide_eq_true_eq, Bool.not_eq_true'] at h
    exact ⟨r, rfl, h.2.1.1, h.2.1.2, h.2.2⟩
/-- Writes of instance registers, each as initiator, page, offset and value, that a state takes. -/
abbrev Access := Initiator × Nat × Nat × Word
theorem takes_all {s : State} {l : List Access} (ht : s.die.testLock = false)
    (h : l.all (fun a => busB a.1 s && takenB a.1 (s.insts[(0 : InstId)]).ctl.locks a.2.1 a.2.2.1 a.2.2.2) = true) :
    ∀ a ∈ l, s.takes a.1 0 a.2.1 a.2.2.1 a.2.2.2 := by
  intro a ha
  have := List.all_eq_true.mp h a ha
  simp only [Bool.and_eq_true] at this
  exact ⟨busTo_of this.1, writeTaken_of ht this.2⟩
theorem dieTakes_all {s : State} {l : List Access} (ht : s.die.testLock = false) (hs : s.supply = .on)
    (h : l.all (fun a => !initStalled a.1 s.insts && takenB a.1 s.die.ctl.locks a.2.1 a.2.2.1 a.2.2.2) = true) :
    ∀ a ∈ l, s.dieTakes a.1 a.2.1 a.2.2.1 a.2.2.2 := by
  intro a ha
  have := List.all_eq_true.mp h a ha
  simp only [Bool.and_eq_true, Bool.not_eq_true'] at this
  exact ⟨⟨hs, this.1⟩, writeTaken_of ht this.2⟩

theorem witness_SelectorsLatch : ∀ a ∈ ([(.mgmt, 0x10, 0x14C, 1023), (.host, 0x10, 0x184, 255), (.mgmt, 0x15, 0x144, 15), (.mgmt, 0x15, 0x120, 0),
    (.host, 0x17, 0x130, 1023), (.mgmt, 0x19, 0x108, 0), (.mgmt, 0x19, 0x124, 31), (.mgmt, 0x19, 0x140, 0), (.mgmt, 0x1B, 0x10C, 0),
    (.mgmt, 0x1C, 0x10C, 63), (.mgmt, 0x1E, 0x13C, 5), (.mgmt, 0x1E, 0x148, 511), (.mgmt, 0x1F, 0x124, 0), (.mgmt, 0x20, 0x134, 0)] : List Access),
    (st act).takes a.1 0 a.2.1 a.2.2.1 a.2.2.2 := takes_all rfl (by decide +kernel)

def stepping (n : Option Nat) : Inst :=
  liveWith (fun c => { c with run := { c.run with started := n }, user := { c.user with pendStep := 11 } })
theorem witness_ScalarsArm :
    (∀ a ∈ ([(.mgmt, 0x12, 0x148, 1)] : List Access), (st (stepping none)).takes a.1 0 a.2.1 a.2.2.1 a.2.2.2) ∧
    (∀ a ∈ ([(.mgmt, 0x12, 0x148, 1)] : List Access), (st (stepping (some 11))).takes a.1 0 a.2.1 a.2.2.1 a.2.2.2) ∧
    (st (stepping none)).die.ctxSel .mgmt = 0 ∧
    (let i := (st (stepping none)).seen 0
     i.scalarsUsed 0 (i.ctx 0).user.pendStep = false ∧ (i.ctx 0).run.started = none) ∧
    (let i := (st (stepping (some 10))).seen 0
     i.scalarsUsed 0 (i.ctx 0).user.pendStep = false ∧ (i.ctx 0).run.started = some 10) ∧
    (((st (stepping (some 11))).seen 0).ctx 0).run.started = some 11 :=
  ⟨takes_all rfl (by decide +kernel), takes_all rfl (by decide +kernel), by decide +kernel, by decide +kernel, by decide +kernel, by decide +kernel⟩

/-- A threaded pool, with that many buffers held by the host. -/
def holding (n : Nat) : Inst :=
  let e : BufEntry := { share := 5, lentFrom := 8, ctx := none, owners := [.init 1], deferred := [] }
  { act with pool := { act.pool.thread with owned := (List.range n).map (fun b => (b, e)), free := (List.range 512).drop n } }
def shared : Inst :=
  { act with pool := { act.pool.thread with owned := [(0, { share := 5, lentFrom := 8, ctx := none, owners := [.init 1, .unit 0], deferred := [] })],
                                            free := (List.range 512).drop 1 } }
def jobbing : Inst :=
  { holding 1 with arr := { act.arr with jobs := [(1, { state := 2, reason := 0, a := 0, b := 0, outA := 0, six := false, work := 2, serial := 1 })] } }
def sized (l : List Word) : Inst :=
  { act with ctl := { act.ctl with regs := l.zipIdx.foldl (fun c p => c.put (regKey 0x1E (0x120 + 4 * p.2)) p.1) act.ctl.regs } }
theorem witness_PoolCommands :
    (∀ a ∈ ([(.host, 0x1E, 0x114, 1), (.host, 0x1E, 0x11C, 0), (.host, 0x1E, 0x100, 32)] : List Access),
      (st (holding 7)).takes a.1 0 a.2.1 a.2.2.1 a.2.2.2) ∧
    (∀ a ∈ ([(.mgmt, 0x1E, 0x138, 1)] : List Access), (st act).takes a.1 0 a.2.1 a.2.2.1 a.2.2.2) ∧
    (let i := (st (holding 7)).seen 0
     i.pool.free.head? = some 7 ∧ i.pool.threaded = true ∧ i.pool.rebuilding = false ∧ i.initHeld 1 = 7 ∧ i.freeBuffers ≠ 0 ∧
       i.shareRoom 5 65536 = true ∧ (i.pool.owned.find 0).isSome = true ∧ i.jobNames 1 0 = false ∧ i.pool.owned.find 7 = none) ∧
    8 ≤ ((st (holding 8)).seen 0).initHeld 1 ∧ ((st act).seen 0).pool.threaded = false ∧
    (((st shared).seen 0).pool.owned.find 0).map (fun e => e.owners) = some [.init 1, .unit 0] ∧
    ((st jobbing).seen 0).jobNames 1 0 = true ∧
    (let i := (st act).seen 0
     sizesBad i.pendingSizes i.minSum = 0 ∧ i.ctxs.any (fun c => decide (c.2.map.state ≠ 0)) = false ∧
       ([0, 1, 2, 3, 4] : List Nat).any (fun s => decide (i.shareUsed s ≠ 0)) = false ∧ i.minSum - (i.ctx 0).run.poolMin + 32 ≤ 192) ∧
    sizesBad ((st (sized [0, 0, 0, 0, 0, 0])).seen 0).pendingSizes 0 ≠ 0 :=
  ⟨takes_all rfl (by decide +kernel), takes_all rfl (by decide +kernel), by decide +kernel, by decide +kernel, by decide +kernel, by decide +kernel,
   by decide +kernel, by decide +kernel, by decide +kernel⟩

/-- Mailbox 3 with that many messages. -/
def mailed (n : Nat) : Inst := { act with mbox := { act.mbox with boxes := [(3, List.replicate n { words := [0], stamp := 0 })] } }
theorem witness_Mailboxes :
    (∀ n ∈ [0, 3, 4], ∀ a ∈ ([(.mgmt, 0x1F, 0x120, 0x103), (.mgmt, 0x1F, 0x120, 0x803), (.seq 0, 0x1F, 0x120, 0x103), (.mgmt, 0x1F, 0x14C, 0x103)] :
      List Access), (st (mailed n)).takes a.1 0 a.2.1 a.2.2.1 a.2.2.2) ∧
    (∀ w ∈ [0x103, 0x803], let n := bits w 11 8
      w = bits w 2 0 + 2 ^ 8 * n ∧ 1 ≤ n ∧ n ≤ 8 ∧ bits w 2 0 = 3) ∧
    (((st (mailed 3)).seen 0).box 3).length = 3 ∧ (((st (mailed 4)).seen 0).box 3).length = 4 ∧
    mayPop 0 (masked 0x1F 0x14C 0x103).toNat = true ∧ mayPop 2 (masked 0x1F 0x14C 0x003).toNat = true ∧
    (((st (mailed 0)).seen 0).box 3) = [] ∧ (((st { act with mbox := { act.mbox with boxes := [(11, [{ words := [0], stamp := 0 }])] } }).seen 0).box 11) ≠ [] :=
  ⟨fun n hn => by
    simp only [List.mem_cons, List.not_mem_nil, or_false] at hn
    rcases hn with rfl | rfl | rfl <;> exact takes_all rfl (by decide +kernel), by decide +kernel, by decide +kernel, by decide +kernel, by decide +kernel,
   by decide +kernel, by decide +kernel, by decide +kernel⟩

/-- The registers of a job slot are zero and buffer 0 is the host's, so both operands are the descriptor at its start: one element. -/
def desc1 : List (Nat × Bytes) := [(4, [1, 0, 1, 0])]
def placed0 (i : Inst) (ps : List (Nat × Bytes)) : State := (st i).placed .host 0 ps
def telem0 (head tail : Nat) : Inst := { act with telem := { act.telem with stepSize := 1, stepHead := head, stepTail := tail } }
def priv (l : List Nat) : State :=
  let s := st act
  { s with die := { s.die with coldPriv := l } }
theorem witness_RegisterEffects :
    (∀ a ∈ ([(.mgmt, 0x13, 0x120, 1), (.host, 0x20, 0x114, 1), (.host, 0x20, 0x110, 0), (.mgmt, 0x20, 0x128, 1), (.mgmt, 0x20, 0x12C, 0x800),
             (.mgmt, 0x20, 0x12C, 0x1000), (.mgmt, 0x18, 0x100, 0x010102), (.mgmt, 0x18, 0x100, 0x080810), (.host, 0x10, 0x134, 1),
             (.mgmt, 0x16, 0x018, 1), (.mgmt, 0x12, 0x118, 0), (.mgmt, 0x12, 0x118, 1), (.host, 0x1A, 0x110, 1)] : List Access),
      (st act).takes a.1 0 a.2.1 a.2.2.1 a.2.2.2) ∧
    counterListed 0x12 = true ∧ counterListed 0x13 = false ∧
    (let i := (st (telem0 0x800 0)).seen 0
     let size := i.telem.stepSize * 4096
     0x800 < size ∧ (0x800 + size - i.telem.stepTail) % size ≤ (i.telem.stepHead + size - i.telem.stepTail) % size ∧ size ≤ 0x1000) ∧
    (∀ v ∈ [0x010102, 0x080810], 1 ≤ bits v 4 0 ∧ bits v 4 0 ≤ 16 ∧ 1 ≤ bits v 12 8 ∧ 1 ≤ bits v 20 16 ∧ bits v 12 8 + bits v 20 16 ≤ bits v 4 0) ∧
    ((st act).seen 0).ctxs.any (fun c => decide (c.2.map.state ≠ 0) || decide (c.2.map.slot ≠ 0)) = false ∧
    (((priv [1, 2, 3]).seen 0).view.coldPriv.contains 0 = false ∧ ((priv [1, 2, 3]).seen 0).view.coldPriv.length < 4) ∧
    (((priv [1, 2, 3, 4]).seen 0).view.coldPriv.contains 0 = false ∧ 4 ≤ ((priv [1, 2, 3, 4]).seen 0).view.coldPriv.length) ∧
    (∀ a ∈ ([(.host, 0x1A, 0x110, 1)] : List Access), (placed0 (holding 1) desc1).takes a.1 0 a.2.1 a.2.2.1 a.2.2.2) ∧
    (∀ a ∈ ([(.host, 0x1A, 0x110, 1)] : List Access), (placed0 jobbing []).takes a.1 0 a.2.1 a.2.2.1 a.2.2.2) ∧
    (let i := (placed0 (holding 1) desc1).seen 0
     ((i.arr.jobs.find 1).getD (i.jobWanted 1)).work = 0 ∧ i.jobReason 1 (i.jobWanted 1) = 0) ∧
    (∀ p ∈ [placed0 (holding 1) [], placed0 (holding 0) desc1], let i := p.seen 0
      ((i.arr.jobs.find 1).getD (i.jobWanted 1)).work = 0 ∧ i.jobReason 1 (i.jobWanted 1) ≠ 0) ∧
    (let i := (placed0 jobbing []).seen 0
     ((i.arr.jobs.find 1).getD (i.jobWanted 1)).work ≠ 0) :=
  ⟨takes_all rfl (by decide +kernel), by decide +kernel, by decide +kernel, by decide +kernel, by decide +kernel, by decide +kernel, by decide +kernel,
   by decide +kernel, takes_all rfl (by decide +kernel), takes_all rfl (by decide +kernel), by decide +kernel, by decide +kernel, by decide +kernel⟩

/-- A command queue in which that many words wait; and an event ring whose readers have both read up to entry 3. -/
def waitingWords (n : Nat) : Inst := { act with cmdq := { act.cmdq with queue := [{ init := 1, words := List.replicate n 0 }] } }
def ringed : Inst :=
  { act with ctl := { act.ctl with logs := { act.ctl.logs with ring := { entries := [], head := 5, mtail := 3, htail := 3, dropped := 0 } } } }
theorem witness_QueueAndTails :
    (∀ a ∈ ([(.host, 0x10, 0x120, 0x81C00000), (.host, 0x10, 0x120, 0), (.mgmt, 0x10, 0x144, 5), (.mgmt, 0x10, 0x144, 6), (.host, 0x10, 0x148, 5),
             (.host, 0x10, 0x148, 6), (.mgmt, 0x16, 0x108, 0)] : List Access), (st ringed).takes a.1 0 a.2.1 a.2.2.1 a.2.2.2) ∧
    (masked 0x10 0x120 0x81C00000).getLsbD 31 = true ∧ (masked 0x10 0x120 0).getLsbD 31 = false ∧
    (((st (waitingWords 248)).seen 0).cmdq.orphan 1 0).free = 8 ∧ (((st (waitingWords 249)).seen 0).cmdq.orphan 1 0).free < 8 ∧
    ((st act).seen 0).cmdq.asm.find 1 = none ∧
    (((st { act with cmdq := { act.cmdq with asm := [(1, [0x81C00000])] } }).seen 0).cmdq.asm.find 1).getD [] ≠ [] ∧
    (let r := ((st ringed).seen 0).ctl.logs.ring
     (5 + 1024 - r.mtail) % 1024 ≤ (r.head + 1024 - r.mtail) % 1024 ∧ (r.head + 1024 - r.mtail) % 1024 < (6 + 1024 - r.mtail) % 1024 ∧
       (5 + 1024 - r.htail) % 1024 ≤ (r.head + 1024 - r.htail) % 1024 ∧ (r.head + 1024 - r.htail) % 1024 < (6 + 1024 - r.htail) % 1024) ∧
    (instPage 0x16 = true ∧ (0x108 : Nat) < 0x1000 ∧ (0x108 : Nat) % 4 = 0 ∧ (0x100 : Nat) ≤ 0x108) ∧
    (st act).busTo .mgmt 0 :=
  ⟨takes_all rfl (by decide +kernel), by decide +kernel, by decide +kernel, by decide +kernel, by decide +kernel, by decide +kernel, by decide +kernel,
   by decide +kernel, by decide +kernel, busTo_of (by decide +kernel)⟩

def received (c : List RxChar) : State :=
  let s := st act
  { s with die := { s.die with uart := { s.die.uart with rx := c }, ctl := s.die.ctl.store 0 0x02 0x018 0x1B } }
theorem witness_ReadsWithEffect :
    (∀ p ∈ [0x12, 0x18, 0x19, 0x1B, 0x20, 0x21], (st live0).reads .mgmt 0 p) ∧
    (((st live0).seen 0).image 0 = some img ∧ ((st act).seen 0).image 0 = none) ∧
    (((st (liveWith (fun c => { c with user := { c.user with armed := [(1, [0])] } }))).seen 0).activeSet 0).isSome = true ∧
    ((st live0).seen 0).activeSet 0 = none ∧
    (let i := (st { act with cold := coldSt [] }).seen 0
     i.cold.images.find? (fun c => c.ctx = i.view_ 0 0x21 0x11C) = some image0) ∧
    (let i := (st act).seen 0
     i.cold.images.find? (fun c => c.ctx = i.view_ 0 0x21 0x11C) = none) ∧
    ((received [⟨0x41, false, false⟩]).busDie .mgmt ∧ (∀ p ∈ [0, 1, 2], mayRead .mgmt p = true) ∧ (received []).die.bridge = false ∧
      (received [⟨0x41, false, false⟩]).die.uart.rx = [⟨0x41, false, false⟩] ∧ (received []).die.uart.rx = []) :=
  ⟨fun p hp => ⟨busTo_of (by decide +kernel), by revert p; decide +kernel⟩, by decide +kernel, by decide +kernel, by decide +kernel, by decide +kernel,
   by decide +kernel, ⟨rfl, by decide +kernel⟩, by decide +kernel, by decide +kernel, rfl, rfl⟩

/-- A die at time 64, with an open sequence of MGMT at an instance page, or at a die-wide page, that GUARD_A began at time `t`. -/
def guardSt (page off t : Nat) (v : Word) : State :=
  let i : Inst := { act with ctl := act.ctl.setGuard 0 page { target := off, valueA := some v, timeA := t } }
  let s := st i
  { s with die := { s.die with time := 64 } }
def dieGuardSt (page off : Nat) (v : Word) (lock : Bool) : State :=
  let s := st act
  { s with die := { s.die with time := 64, detLock := lock, ctl := s.die.ctl.setGuard 0 page { target := off, valueA := some v, timeA := 0 } } }
theorem opens_of {page off : Nat} {v : Word} (hb : busB .mgmt (guardSt page off 0 v) = true)
    (hg : (guardSt page off 0 v).insts[(0 : InstId)].ctl.guard 0 page = { target := off, valueA := some v, timeA := 0 })
    (h : (guarded page off && mayGuard .mgmt false page off v) = true) : (guardSt page off 0 v).opens .mgmt 0 page off v := by
  rw [Bool.and_eq_true] at h
  exact ⟨busTo_of hb, ⟨0, hg, Nat.le_refl _⟩, h.1, h.2⟩

theorem witness_GuardSequences :
    instPage 0x10 = true ∧ (st act).busTo .mgmt 0 ∧ (st act).supply = .on ∧ instNo 0 = 0 ∧
    ((guardSt 0x10 0x104 0 1).seen 0).ctl.guard 0 0x10 = { target := 0x104, valueA := some 1, timeA := 0 } ∧
    (((st act).seen 0).ctl.guard 0 0x10).valueA = none :=
  ⟨rfl, busTo_of (by decide +kernel), rfl, rfl, by decide +kernel, by decide +kernel⟩

theorem witness_GuardFaults :
    (st act).busTo .mgmt 0 ∧ (((st act).seen 0).ctl.guard 0 0x10).valueA = none ∧
    (let s : State := { guardSt 0x10 0x12C 0 1 with die := { (guardSt 0x10 0x12C 0 1).die with time := 65 } }
     (((s.seen 0).ctl.guard 0 0x10).timeA + 64 < s.die.time ∧ ((s.seen 0).ctl.guard 0 0x10).valueA = some 1)) ∧
    (let s := guardSt 0x10 0x12C 0 1
     s.die.time ≤ ((s.seen 0).ctl.guard 0 0x10).timeA + 64 ∧ (0 : Word) ≠ ~~~1) ∧
    guarded 0x10 ((guardSt 0x10 0x100 0 1).seen 0 |>.ctl.guard 0 0x10).target = false :=
  ⟨busTo_of (by decide +kernel), by decide +kernel, by decide +kernel, by decide +kernel, by decide +kernel⟩

theorem witness_ContextCommands : (guardSt 0x12 0x100 0 1).opens .mgmt 0 0x12 0x100 1 ∧ (guardSt 0x12 0x100 0 2).opens .mgmt 0 0x12 0x100 2 ∧
    (guardSt 0x12 0x100 0 3).opens .mgmt 0 0x12 0x100 3 ∧ (guardSt 0x12 0x100 0 4).opens .mgmt 0 0x12 0x100 4 ∧
    (guardSt 0x12 0x100 0 5).opens .mgmt 0 0x12 0x100 5 :=
  ⟨opens_of (by decide +kernel) (by decide +kernel) (by decide +kernel), opens_of (by decide +kernel) (by decide +kernel) (by decide +kernel),
   opens_of (by decide +kernel) (by decide +kernel) (by decide +kernel), opens_of (by decide +kernel) (by decide +kernel) (by decide +kernel),
   opens_of (by decide +kernel) (by decide +kernel) (by decide +kernel)⟩

theorem witness_GuardedOrders : (0xFFFFFFFE : Word) = ~~~1 ∧ (guardSt 0x10 0x104 0 1).opens .mgmt 0 0x10 0x104 1 ∧
    (guardSt 0x10 0x108 0 1).opens .mgmt 0 0x10 0x108 1 ∧ (guardSt 0x10 0x108 0 0).opens .mgmt 0 0x10 0x108 0 ∧
    (guardSt 0x10 0x12C 0 1).opens .mgmt 0 0x10 0x12C 1 ∧ (guardSt 0x21 0x108 0 0).opens .mgmt 0 0x21 0x108 0 ∧
    (guardSt 0x11 0x104 0 0x01000000).opens .mgmt 0 0x11 0x104 0x01000000 :=
  ⟨by decide, opens_of (by decide +kernel) (by decide +kernel) (by decide +kernel), opens_of (by decide +kernel) (by decide +kernel) (by decide +kernel),
   opens_of (by decide +kernel) (by decide +kernel) (by decide +kernel), opens_of (by decide +kernel) (by decide +kernel) (by decide +kernel),
   opens_of (by decide +kernel) (by decide +kernel) (by decide +kernel), opens_of (by decide +kernel) (by decide +kernel) (by decide +kernel)⟩

def locked (page : Nat) : Inst := { act with ctl := { act.ctl with locks := [page] } }
theorem witness_LocksAndDieGuards :
    (∀ p ∈ ([(0x00, 0x108, 1), (0x03, 0x100, 1)] : List (Nat × Nat × Word)), ∀ b ∈ [false, true],
      let s := dieGuardSt p.1 p.2.1 p.2.2 b
      s.supply = .on ∧ initStalled .mgmt s.insts = false ∧ s.die.ctl.guard 0 p.1 = { target := p.2.1, valueA := some p.2.2, timeA := 0 } ∧ s.die.time ≤ 64 ∧
        guarded p.1 p.2.1 = true ∧ mayWrite .mgmt s.die.testLock p.1 p.2.1 = true ∧ s.die.detLock = b ∧ s.die.testLock = false) ∧
    ((st act).busTo .mgmt 0 ∧ instPage 0x10 = true ∧ mayWrite .mgmt false 0x10 0x01C = true ∧ ((st act).seen 0).ctl.locks.contains 0x10 = false) ∧
    ((st (locked 0x10)).busTo .mgmt 0 ∧ ((st (locked 0x10)).seen 0).ctl.locks.contains 0x10 = true) ∧
    ((st act).busDie .mgmt ∧ (∀ p ∈ [0, 1, 2, 3], diePage p = true ∧ mayWrite .mgmt false p 0x01C = true ∧ (st act).die.ctl.locks.contains p = false)) :=
  ⟨by decide +kernel, ⟨busTo_of (by decide +kernel), by decide +kernel, by decide +kernel, by decide +kernel⟩,
   ⟨busTo_of (by decide +kernel), by decide +kernel⟩, ⟨rfl, by decide +kernel⟩, by decide +kernel⟩

/-- The UART with the register bridge off, and with that many characters in each FIFO; and the same under the bridge. -/
def uartSt (n : Nat) (frame : Bytes) (bridge : Bool) : State :=
  let s := st act
  { s with die := { s.die with ctl := s.die.ctl.store 0 0x02 0x018 (if bridge then 0x1001B else 0x1B),
                               uart := { s.die.uart with tx := List.replicate n 0x41, rx := List.replicate n ⟨0x41, false, false⟩, frame := frame } } }
def epochSt : State := st (powered .starting (fun w => { w with start := .epoch }))
theorem witness_DieRegisters :
    (∀ a ∈ ([(.mgmt, 0x01, 0x10C, 0), (.mgmt, 0x01, 0x110, 7), (.mgmt, 0x02, 0x104, 0x41), (.mgmt, 0x02, 0x018, 0x1001B), (.mgmt, 0x02, 0x018, 0x1B),
             (.mgmt, 0x03, 0x104, 0)] : List Access), (uartSt 15 [] false).dieTakes a.1 a.2.1 a.2.2.1 a.2.2.2) ∧
    (∀ a ∈ ([(.mgmt, 0x01, 0x110, 7)] : List Access), epochSt.dieTakes a.1 a.2.1 a.2.2.1 a.2.2.2) ∧
    (epochSt.insts[(0 : InstId)]).pw.start = .epoch ∧ ((st act).insts[(0 : InstId)]).pw.start ≠ .epoch ∧
    ((uartSt 15 [] false).die.bridge = false ∧ (uartSt 15 [] false).die.uart.tx.length < 16 ∧ 16 ≤ (uartSt 16 [] false).die.uart.tx.length ∧
      (uartSt 15 [] true).die.bridge = true) ∧
    ((masked 0x02 0x018 0x1001B).toNat % 2 ^ 16 ≠ 0 ∧ ({ (uartSt 15 [] false).die with
      ctl := (uartSt 15 [] false).die.ctl.store 0 0x02 0x018 0x1001B } : Die).bridge ≠ (uartSt 15 [] false).die.bridge ∧
      ({ (uartSt 15 [] false).die with ctl := (uartSt 15 [] false).die.ctl.store 0 0x02 0x018 0x1B } : Die).bridge = (uartSt 15 [] false).die.bridge) ∧
    ((st act).die.pins.muxOwns = false ∧ (st act).die.pins.switching = false) :=
  ⟨dieTakes_all rfl rfl (by decide +kernel), dieTakes_all rfl rfl (by decide +kernel), by decide +kernel, by decide +kernel, by decide +kernel,
   by decide +kernel, by decide +kernel⟩

def pinSt (owns switching en : Bool) : State :=
  let s := st act
  { s with die := { s.die with pins := { muxOwns := owns, switching := switching }, ctl := s.die.ctl.store 0 0x03 0x100 (if en then 1 else 0) } }
theorem witness_PinsAndUart :
    ((pinSt false false false).supply = .on ∧ (pinSt false false false).die.pins.switching = false ∧ (pinSt false false false).die.uartOwns = true) ∧
    ((pinSt false true true).die.pins.switching = true ∧ (pinSt false true true).die.muxEn ≠ (pinSt false true true).die.pins.muxOwns) ∧
    ((pinSt true true true).die.muxEn = (pinSt true true true).die.pins.muxOwns ∧ (pinSt true true true).die.uartOwns = false) ∧
    ((uartSt 15 [] false).die.uart.rx.length < 16 ∧ 16 ≤ (uartSt 16 [] false).die.uart.rx.length ∧ (uartSt 1 [] false).die.uart.tx = [0x41] ∧
      (uartSt 0 [] false).die.uart.tx = []) ∧
    ((uartSt 0 [0x52] true).die.bridge = true ∧ (uartSt 0 [0x52] true).die.uart.waiting = false ∧
      frameWhole (uartSt 0 [0x52] true).die.uart.frame = false) := by decide +kernel

/-- Frames of the register bridge: a read of a die-wide and of an instance register, a write of an instance and of a refused die-wide one. -/
def frame0 (op : Byte) (addr : Nat) (w : Word) : Bytes := op :: natLe 3 addr ++ (if op = 0x52 then [] else natLe 4 w.toNat)
theorem witness_BridgeFrames :
    (∀ f ∈ [frame0 0x52 0x00100 0, frame0 0x52 0x16100 0, frame0 0x52 0x16101 0], let s := uartSt 0 f true
      s.die.bridge = true ∧ s.die.uart.waiting = false ∧ s.supply = .on ∧ initStalled .dbg s.insts = false ∧ frameDone 0x52 s.die.uart.frame = true) ∧
    (∀ f ∈ [frame0 0x57 0x1A100 0, frame0 0x57 0x00108 0, frame0 0x57 0x16101 0], let s := uartSt 0 f true
      s.die.bridge = true ∧ frameDone 0x57 s.die.uart.frame = true) ∧
    (field 1 3 (frame0 0x52 0x00100 0) = 0x00100 ∧ diePage 0x00 = true ∧ instPage 0x16 = true ∧ instPage 0x1A = true ∧ 0x16101 % 4 ≠ 0) ∧
    (uartSt 0 (frame0 0x57 0x10020 0) true).busTo .dbg 0 ∧
    (let s := uartSt 0 (frame0 0x57 0x10020 0) true
     allowed .dbg s.die.testLock 0x10 0x020 true = true ∧ frameDone 0x57 s.die.uart.frame = true ∧
       ∀ w, ((s.seen 0).writeReg .dbg 0 0x10 0x020 w).2 ≠ .stalled) ∧
    allowed .dbg false 0x00 0x108 true = false ∧ ((uartSt 0 [0x52] true).die.uart.frame ≠ [] ∧ frameWhole [0x52] = false) :=
  ⟨by decide +kernel, by decide +kernel, by decide +kernel, busTo_of (by decide +kernel),
   ⟨by decide +kernel, by decide +kernel, fun _ h => by cases h⟩, by decide +kernel, by decide +kernel⟩

/-! ### The whole block -/

theorem witness_QueueDrains : ofSupply (.wake 0 0) = false ∧ (st act).supply = .on ∧
    ({ st act with pending := [.wake 0 0, .uartTransmit] } : State).pending.all (fun c => !ofSupply c) = true := by decide +kernel
theorem witness_StepRunsFrontCommand : (st act).pending = [] ∧ (st act).supply = .on ∧ ({ st act with supply := .off } : State).supply ≠ .on := by
  decide +kernel
theorem witness_OtherInstancesStand : instOf (.wake 0 0) = some 0 ∧ (1 : InstId) ≠ 0 ∧ ∃ t, exec (.wake 0 0) (st act) = .next t := ⟨rfl, by decide, _, rfl⟩
/-- A die without power. -/
def darkSt : State := { supply := .off, die := (st act).die.dark, insts := Vector.ofFn (fun k => Inst.dark k.val act), pending := [] }
theorem witness_DarkWhenOffKept : darkSt.supply = .off ∧ darkSt.die.dark = darkSt.die ∧
    (∀ k : InstId, Inst.dark k.val darkSt.insts[k] = darkSt.insts[k]) ∧ ∃ t, step darkSt = .next t := 
  ⟨rfl, rfl, fun k => by simp only [darkSt, Fin.getElem_fin, Vector.getElem_ofFn]; rfl, _, rfl⟩
theorem witness_DarkAtReset : State.reset.supply ≠ .off := by decide
theorem witness_MemoryCells : (Memory.write 3 [1, 0, 2] []).wf = true := by decide +kernel
theorem witness_VersionOrder : (0 : Nat) < 2 ^ 32 ∧ newer 1 0 = true ∧ newer (2 ^ 31 - 1) 0 = true ∧ newer (2 ^ 31) 0 = false ∧ newer 0 0 = false ∧
    newer 0 (2 ^ 32 - 1) = true := by decide +kernel

end Sys2Proof.Tests
end

section
/-! PROOFS. Step flow (R13 to R28, R33, R34, R189, R347, R348): gradients and control items of GRAD_IN, updates and their write
back, and the close of a step. -/

namespace Sys2Proof.Machine

/-! ### A command to one `Inst` -/

/-- A command to one `Inst` of a running die makes any change that agrees with its own on the `Inst` as it is seen. -/
theorem runInst_change {k : InstId} {f g : Inst → Inst} {s : State} (hs : s.supply = .on) (h : f (s.seen k) = g (s.seen k)) :
    runInst k f s = .next (s.change k g) := by
  rw [runInst_on hs]
  simp only [State.change, h]

/-! ### A start flag leaves all but the note of stray beats -/

section StartFlag

variable (i : Inst) (x step n : Nat)

@[simp] theorem Inst.startFlag_pw : i.startFlag.pw = i.pw := rfl
@[simp] theorem Inst.startFlag_ctx : i.startFlag.ctx x = i.ctx x := rfl
@[simp] theorem Inst.startFlag_view : i.startFlag.view = i.view := rfl
@[simp] theorem Inst.startFlag_image : i.startFlag.image x = i.image x := rfl
@[simp] theorem Inst.startFlag_gradCredit : i.startFlag.gradCredit x n = i.gradCredit x n := rfl
@[simp] theorem Inst.startFlag_stepClosed : i.startFlag.stepClosed x step = i.stepClosed x step := rfl
@[simp] theorem Inst.startFlag_atBase : i.startFlag.atBase x step = i.atBase x step := rfl

end StartFlag

/-! ### A gradient on GRAD_IN -/

section Gradient

variable {g : GradItem} {i j : Inst} {m : MapImage} {l : LayerRec} {a : Option Nat} {serving : Bool}

/-- An item that is taken is judged, and what may then leave leaves (R17, R18, R171). -/
theorem Inst.gradIn_taken (h : i.startFlag.gradTaken g) (e : i.startFlag.gradient g = j) : i.gradIn g = j.pump := by
  obtain ⟨hact, hcredit, hframed, hkind⟩ := h
  rw [Inst.startFlag_pw] at hact
  rw [Inst.startFlag_gradCredit] at hcredit
  simp [Inst.gradIn, hact, hcredit, hframed, hkind, e]

/-- A gradient of a context without a map is not homed here (R13). -/
theorem Inst.gradient_unmapped (h : i.image g.desc.ctx = none) :
    i.gradient g = i.gradDiscard 2 0x1907 g.desc.ctx g.desc.range g.desc.step := by
  simp only [Inst.gradient, h]

/-- How a homed gradient of the step range is judged once the last applied step `a` of its range is known: new, of a layer that
runs, well formed, not poisoned, with its scalars kept if late (R15, R16, R142, R170, R415). -/
def Inst.gradJudged (g : GradItem) (m : MapImage) (l : LayerRec) (serving : Bool) (a : Option Nat) (j : Inst) : Inst :=
  let d := g.desc
  if d.step ≤ a.getD m.head.baseStep ∨ (j.workOf d.ctx d.range d.step).any (fun w => w.stage != .skipped) = true then
    j.gradDiscard 1 0x1909 d.ctx d.range d.step
  else if (j.ctx d.ctx).run.halted.contains l.id = true then j.tally d.ctx 11
  else if d.layer ≠ l.id ∨ gradWellFormed d.format m.width d.payloadBytes g.payload = false then
    (j.malformedGrad (some d.ctx) (descBytes d)).arrivedEmpty d.ctx l d.range d.step (d.flags.testBit 0)
  else if g.poisoned = true then
    (j.gradDiscard 5 0x190A d.ctx d.range d.step).arrivedEmpty d.ctx l d.range d.step (d.flags.testBit 0)
  else if j.stepClosed d.ctx d.step = true ∧ (j.program l.program).any (fun p => p.scalars) = true ∧
      j.scalarsOf d.ctx l.id d.step = none then
    j.gradDiscard 7 0x1911 d.ctx d.range d.step
  else j.acceptGrad d.ctx m l d g.payload serving

/-- A homed gradient is judged against the last applied step of its range (R13, R14, R156). -/
theorem Inst.gradient_homed (h : i.gradHomed g.desc m l) (e : i.appliedStep g.desc.ctx g.desc.range = (j, a)) :
    i.gradient g = j.gradJudged g m l (i.serves g.desc.ctx g.desc.range).isSome a := by
  obtain ⟨himage, hlayer, hfenced, hoffline, hgone, hserve, hrange⟩ := h
  have hserved : (!(i.serves g.desc.ctx g.desc.range).isSome && !i.isIncoming g.desc.ctx g.desc.range) = false := by
    rw [← Bool.not_or, hserve, Bool.not_true]
  simp only [Inst.gradient, himage, hlayer, hfenced, hoffline, hgone, hserved, hrange, e, Inst.gradJudged]
  -- The model matches on three things that may be absent: the applied step, earlier work of the step, the layer's program.
  cases a <;> cases j.workOf g.desc.ctx g.desc.range g.desc.step <;> cases j.program l.program <;> simp [and_assoc]

/-- A new gradient passes the checks for duplicates (R15, R16). -/
theorem Inst.gradNew.not_duplicate (h : j.gradNew g.desc m a) :
    ¬ (g.desc.step ≤ a.getD m.head.baseStep ∨
      (j.workOf g.desc.ctx g.desc.range g.desc.step).any (fun w => w.stage != .skipped) = true) := by
  obtain ⟨hlater, hskipped⟩ := h
  rintro (hle | hany)
  · omega
  · obtain ⟨w, hw, hstage⟩ := (Option.any_eq_true _ _).mp hany
    simp [hskipped w hw] at hstage

/-- A gradient not later than the last applied step is a duplicate (R15). -/
theorem Inst.gradJudged_applied (h : g.desc.step ≤ a.getD m.head.baseStep) :
    j.gradJudged g m l serving a = j.gradDiscard 1 0x1909 g.desc.ctx g.desc.range g.desc.step :=
  if_pos (.inl h)

/-- A new gradient of a halted layer is discarded (R142). -/
theorem Inst.gradJudged_halted (hnew : j.gradNew g.desc m a) (hhalted : (j.ctx g.desc.ctx).run.halted.contains l.id = true) :
    j.gradJudged g m l serving a = j.tally g.desc.ctx 11 :=
  (if_neg hnew.not_duplicate).trans (if_pos hhalted)

section Formed

variable (hnew : j.gradNew g.desc m a) (hruns : (j.ctx g.desc.ctx).run.halted.contains l.id = false) (hlayer : g.desc.layer = l.id)
  (hformed : gradWellFormed g.desc.format m.width g.desc.payloadBytes g.payload = true)
include hnew hruns hlayer hformed

/-- A new, well-formed gradient of a running layer is discarded where it is poisoned, and its range has arrived with nothing (R170). -/
theorem Inst.gradJudged_poisoned (hpoison : g.poisoned = true) :
    j.gradJudged g m l serving a = (j.gradDiscard 5 0x190A g.desc.ctx g.desc.range g.desc.step).arrivedEmpty g.desc.ctx l
      g.desc.range g.desc.step (g.desc.flags.testBit 0) := by
  rw [Inst.gradJudged, if_neg hnew.not_duplicate]
  simp only [hruns, hlayer, hformed, hpoison]
  simp

/-- A new, well-formed, clean gradient of a running layer is accepted, a late one where its layer's scalars are kept (R34, R415). -/
theorem Inst.gradJudged_accepted (hclean : g.poisoned = false)
    (hlate : j.stepClosed g.desc.ctx g.desc.step = true → (∃ p, j.program l.program = some p ∧ p.scalars = true) →
      (j.scalarsOf g.desc.ctx l.id g.desc.step).isSome = true) :
    j.gradJudged g m l serving a = j.acceptGrad g.desc.ctx m l g.desc g.payload serving := by
  have hkept : ¬ (j.stepClosed g.desc.ctx g.desc.step = true ∧ (j.program l.program).any (fun p => p.scalars) = true ∧
      j.scalarsOf g.desc.ctx l.id g.desc.step = none) := by
    rintro ⟨hclosed, hneeds, hnone⟩
    have hsome := hlate hclosed ((Option.any_eq_true _ _).mp hneeds)
    simp [hnone] at hsome
  rw [Inst.gradJudged, if_neg hnew.not_duplicate]
  simp only [hruns, hlayer, hformed, hclean, if_neg hkept]
  simp

end Formed

end Gradient

/-- Settles O1: the checks of R13 to R16, R142, R170 and R415 are passed one after another. -/
theorem gradientAccepted : Obligations.GradientAccepted := by
  intro s k g m l j a hs i d htaken hhomed happlied hnew hruns hlayer hformed hclean hlate
  exact runInst_change hs (Inst.gradIn_taken htaken
    ((Inst.gradient_homed hhomed happlied).trans (Inst.gradJudged_accepted hnew hruns hlayer hformed hclean hlate)))

/-- Settles O2: each discard is the first check of the item that fails. -/
theorem gradientDiscarded : Obligations.GradientDiscarded := by
  intro s k g hs i d htaken
  refine ⟨fun hnone => runInst_change hs (Inst.gradIn_taken htaken (Inst.gradient_unmapped hnone)), ?_⟩
  intro m l j a hhomed happlied
  have hjudged := Inst.gradient_homed hhomed happlied
  refine ⟨fun hle => ?applied, fun hnew hhalted => ?halted, fun hnew hruns hlayer hformed hpoison => ?poisoned⟩
  case applied => exact runInst_change hs (Inst.gradIn_taken htaken (hjudged.trans (Inst.gradJudged_applied hle)))
  case halted => exact runInst_change hs (Inst.gradIn_taken htaken (hjudged.trans (Inst.gradJudged_halted hnew hhalted)))
  case poisoned =>
    exact runInst_change hs (Inst.gradIn_taken htaken
      (hjudged.trans (Inst.gradJudged_poisoned hnew hruns hlayer hformed hpoison)))

/-! ### What an acceptance records -/

/-- Counting for the per-step record changes telemetry alone (R349). -/
theorem Inst.tally_frame (x k : Nat) (i : Inst) : ∃ t, i.tally x k = { i with telem := t } := by
  obtain ⟨t, e, -⟩ := Inst.count_frame (tallyCounters.getD k 0) 1 i
  simp only [Inst.tally, e]
  exact ⟨_, rfl⟩

/-- So does counting under a condition. -/
theorem Inst.tally_if_frame (c : Bool) (x k : Nat) (i : Inst) : ∃ t, (if c then i.tally x k else i) = { i with telem := t } := by
  cases c
  · exact ⟨i.telem, rfl⟩
  · exact Inst.tally_frame x k i

/-- The pending work of an accepted gradient whose range is not yet served: it owes no ledger copy (R22, R153). -/
def incomingWork (x : Nat) (l : LayerRec) (d : GradDesc) (payload : Bytes) : Work :=
  { ctx := x, q := d.range, step := d.step, layer := l.id, format := d.format, flags := d.flags, payload := payload,
    stage := .pending, place := .ingress, clipAt := 0, putsDue := [], putSent := false, resend := false, coded := false,
    emitted := false, retired := false }

/-- What an acceptance changes of an `Inst` that does not yet serve the range: step counter and opened steps, the work of the
range and step, the order of layers, marks of staging, telemetry (R14, R22, R34). -/
theorem Inst.acceptGrad_incoming (x : Nat) (m : MapImage) (l : LayerRec) (d : GradDesc) (payload : Bytes) (i : Inst) :
    ∃ t o, i.acceptGrad x m l d payload false = { i with
      ctxs := ((i.advanceStep x d.step).modRun x (fun r => { r with opened := insertNat d.step r.opened })).ctxs,
      opt := { i.opt with
        work := i.opt.work.filter (fun v => !(decide (v.ctx = x) && decide (v.q = d.range) && decide (v.step = d.step))) ++
          [incomingWork x l d payload],
        layerOrder := o },
      mem := (i.unmark (.gradient x d.range d.step)).mem,
      telem := t } := by
  obtain ⟨ta, ea⟩ := Inst.tally_frame x 0 (i.advanceStep x d.step)
  simp only [Inst.acceptGrad, ea]
  obtain ⟨tb, eb⟩ := Inst.tally_if_frame (d.flags.testBit 1) x 6 { i.advanceStep x d.step with telem := ta }
  obtain ⟨tc, ec⟩ := Inst.tally_if_frame (i.stepClosed x d.step) x 7 { i.advanceStep x d.step with telem := tb }
  obtain ⟨te, ee, -⟩ := Inst.count_frame Cnt.gradOverflow (gradOverflows d.format m.width (m.validLanes d.range) payload)
    { i.advanceStep x d.step with telem := tc }
  simp only [eb, ec, ee]
  exact ⟨_, _, rfl⟩

/-- The step counter and the opened steps once a step is accepted (R14, R34). -/
theorem Inst.run_accepted (x step : Nat) (i : Inst) :
    let r := (((i.advanceStep x step).modRun x (fun r => { r with opened := insertNat step r.opened })).ctx x).run
    r.step = max (i.ctx x).run.step step ∧ r.opened = insertNat step (i.ctx x).run.opened := by
  simp [Inst.advanceStep]

/-- Settles O3: the parts of the `Inst` an acceptance leaves are read off `acceptGrad_incoming`. -/
theorem acceptanceRecordsWork : Obligations.AcceptanceRecordsWork := by
  intro i x m l d payload j
  obtain ⟨t, o, e⟩ := i.acceptGrad_incoming x m l d payload
  rw [show j = _ from e]
  obtain ⟨hstep, hopened⟩ := i.run_accepted x d.step
  refine ⟨hstep, hopened, ⟨incomingWork x l d payload, by simp, rfl, rfl, rfl, rfl, rfl, rfl⟩, ?_, rfl, rfl, rfl, rfl, rfl⟩
  intro v hv hother
  have hkept : (!(decide (v.ctx = x) && decide (v.q = d.range) && decide (v.step = d.step))) = true := by
    rw [Bool.not_eq_true', Bool.and_eq_false_iff, Bool.and_eq_false_iff]
    obtain hctx | hrange | hstep := hother
    · exact .inl (.inl (decide_eq_false hctx))
    · exact .inl (.inr (decide_eq_false hrange))
    · exact .inr (decide_eq_false hstep)
  exact List.mem_append_left _ (List.mem_filter.mpr ⟨hv, hkept⟩)

/-! ### END_OF_STEP, NORM, stray beats and hints -/

section Control

variable {g : GradItem} {i : Inst}

/-- A framed control item at an ACTIVE `Inst` is judged (R171). -/
theorem Inst.controlIn_taken {f : GradDesc → Inst → Inst} {j : Inst} (h : i.controlTaken g) (e : f g.desc i.startFlag = j) :
    i.controlIn g f = j.pump := by
  obtain ⟨hact, hframed, -⟩ := h
  simp [Inst.controlIn, hact, hframed, e]

/-- A control item of a live member context that is new raises the step counter (R14, R171). -/
theorem Inst.control_new (h : i.controlTaken g) (hbase : i.atBase g.desc.ctx g.desc.step = false) :
    i.startFlag.control g.desc false = (i.startFlag.advanceStep g.desc.ctx g.desc.step, true) := by
  obtain ⟨-, -, hlive, hfenced, hoffline, hrange⟩ := h
  simp [Inst.control, hlive, hfenced, hoffline, hrange, hbase]

/-- One that came before, or of the base step or an earlier one, is a duplicate (R59, R171). -/
theorem Inst.control_duplicate (h : i.controlTaken g) {again : Bool} (hdup : again = true ∨ i.atBase g.desc.ctx g.desc.step = true) :
    i.startFlag.control g.desc again = (i.startFlag.gradDiscard 1 0x1909 g.desc.ctx 0 g.desc.step, false) := by
  obtain ⟨-, -, hlive, hfenced, hoffline, -⟩ := h
  simp [Inst.control, hlive, hfenced, hoffline, hdup]

/-- A new END_OF_STEP is noted, and the partials still owed go out (R23, R33). -/
theorem Inst.endOfStep_new {m : MapImage} (h : i.controlTaken g) (himage : i.image g.desc.ctx = some m)
    (hbase : i.atBase g.desc.ctx g.desc.step = false) (hclosed : i.stepClosed g.desc.ctx g.desc.step = false)
    (hfirst : (i.ctx g.desc.ctx).run.endSteps.any (fun e => e.1 = g.desc.step) = false) :
    i.startFlag.endOfStep g.desc =
      (sortBy (fun l => l.firstParam) m.layers).foldl (fun i l => i.tryPartial g.desc.ctx l g.desc.step true)
        ((i.startFlag.advanceStep g.desc.ctx g.desc.step).modRun g.desc.ctx (fun r =>
          { r with endSteps := r.endSteps ++ [(g.desc.step, i.view.time)], opened := insertNat g.desc.step r.opened })) := by
  have hmap : (i.startFlag.advanceStep g.desc.ctx g.desc.step).image g.desc.ctx = some m := by
    simp [Inst.advanceStep, himage]
  simp only [Inst.endOfStep, Inst.startFlag_stepClosed, Inst.startFlag_ctx, Inst.startFlag_view, hclosed, hfirst, Bool.or_false,
    Inst.control_new h hbase, Inst.image_modRun, hmap]
  rfl

/-- An END_OF_STEP of the base step or an earlier one is a duplicate (R59). -/
theorem Inst.endOfStep_atBase (h : i.controlTaken g) (hbase : i.atBase g.desc.ctx g.desc.step = true) :
    i.startFlag.endOfStep g.desc = i.startFlag.gradDiscard 1 0x1909 g.desc.ctx 0 g.desc.step := by
  simp [Inst.endOfStep, Inst.control_duplicate h (.inr hbase)]

/-- A NORM that came before, or of the base step or an earlier one, is a duplicate (R59, R171). -/
theorem Inst.norm_duplicate (h : i.controlTaken g)
    (hdup : i.atBase g.desc.ctx g.desc.step = true ∨ (i.ctx g.desc.ctx).run.normSeen.contains g.desc.step = true) :
    i.startFlag.norm g.desc = i.startFlag.gradDiscard 1 0x1909 g.desc.ctx 0 g.desc.step := by
  have hcontrol := Inst.control_duplicate h hdup.symm
  simp only [Inst.norm, Inst.startFlag_ctx, hcontrol]
  rfl

/-- A new NORM is held among the two most recent ones, and gradients dropped from the CLIP part are fetched again (R187, R190). -/
theorem Inst.norm_new (h : i.controlTaken g) (hbase : i.atBase g.desc.ctx g.desc.step = false)
    (hfirst : (i.ctx g.desc.ctx).run.normSeen.contains g.desc.step = false) :
    i.startFlag.norm g.desc =
      (let inc := g.desc.flags.testBit 1
       let j := (i.startFlag.advanceStep g.desc.ctx g.desc.step).modRun g.desc.ctx (fun r =>
         { r with norms := lastN 2 (insertBy Prod.fst (g.desc.step, g.desc.normSq, inc) r.norms),
                  normSeen := insertNat g.desc.step r.normSeen, normLate := r.normLate.filter (· ≠ g.desc.step) })
       let n := if inc then (j.event 0x190F (some g.desc.ctx) [(24, 6, g.desc.step)]).modMark g.desc.ctx g.desc.step (fun m =>
         { m with flags := m.flags ||| 1 }) else j
       n.refetch g.desc.ctx g.desc.step) := by
  simp only [Inst.norm, Inst.startFlag_ctx, hfirst, Inst.control_new h hbase]
  rfl

end Control

section Hints

variable {i : Inst}

/-- A malformed item without a descriptor is logged as zeros (R171). -/
theorem Inst.malformedGrad_zeros :
    i.malformedGrad none (List.replicate 32 0) = (i.count Cnt.gradMalformed 1).events
      [(0x190B, 0x19, [(20, 12, 0)]), (0x190C, 0x19, [(20, 12, 0)]), (0x190D, 0x19, [(20, 8, 0)])] none none := rfl

/-- Beats without a descriptor at an ACTIVE `Inst`, the first of their run, are one malformed item of zeros (R171). -/
theorem Inst.strayBeats_first {beats : Nat} (hact : i.pw.state = .active) (hb : beats ≠ 0) (hfirst : i.opt.stray = false) :
    i.strayBeats beats = (Inst.count Cnt.gradMalformed 1 { i with opt := { i.opt with stray := true } }).events
      [(0x190B, 0x19, [(20, 12, 0)]), (0x190C, 0x19, [(20, 12, 0)]), (0x190D, 0x19, [(20, 8, 0)])] none none := by
  have hcounted : ¬ (i.pw.state ≠ .active ∨ beats = 0 ∨ i.opt.stray = true) := by simp [hact, hb, hfirst]
  rw [Inst.strayBeats, if_neg hcounted, Inst.malformedGrad_zeros]

/-- Later beats of the run count for nothing (R171). -/
theorem Inst.strayBeats_again (beats : Nat) (hagain : i.opt.stray = true) : i.strayBeats beats = i := by
  simp [Inst.strayBeats, hagain]

/-- A hint wakes an `Inst` that sleeps and is not on its way into another state (R326). -/
theorem Inst.wakeHint_asleep (hsleep : i.pw.state = .doze ∨ i.pw.state = .nap) (hrest : i.pw.entering = none) :
    i.wakeHint = { i with pw := { i.pw with waking := true, request := none } } := by
  obtain h | h := hsleep <;> simp [Inst.wakeHint, Inst.wakeUp, h, hrest]

/-- An ACTIVE `Inst` ignores a hint (R17). -/
theorem Inst.wakeHint_active (hact : i.pw.state = .active) : i.wakeHint = i := by
  simp [Inst.wakeHint, hact]

end Hints

/-- Settles O4: control items by the checks they share, beats and hints by the state they meet. -/
theorem gradInControlItems : Obligations.GradInControlItems := by
  intro s k hs i
  refine ⟨?endNew, ?normNew, ?normAgain, ?endBase, ?strayFirst, ?strayAgain, ?hintAsleep, ?hintActive⟩
  case endNew =>
    intro g m h himage hbase hclosed hfirst
    exact runInst_change hs (Inst.controlIn_taken h (Inst.endOfStep_new h himage hbase hclosed hfirst))
  case normNew =>
    intro g h hbase hfirst
    exact runInst_change hs (Inst.controlIn_taken h (Inst.norm_new h hbase hfirst))
  case normAgain =>
    intro g h hdup
    exact runInst_change hs (Inst.controlIn_taken h (Inst.norm_duplicate h hdup))
  case endBase =>
    intro g h hbase
    exact runInst_change hs (Inst.controlIn_taken h (Inst.endOfStep_atBase h hbase))
  case strayFirst =>
    intro beats hact hb hfirst
    exact runInst_change hs (Inst.strayBeats_first hact hb hfirst)
  case strayAgain =>
    intro beats _ hagain
    exact runInst_change hs (Inst.strayBeats_again beats hagain)
  case hintAsleep =>
    intro x hsleep hrest
    have hwakes := Inst.wakeHint_asleep hsleep hrest
    exact ⟨runInst_change hs hwakes, runInst_change hs hwakes⟩
  case hintActive =>
    intro x hact
    have hignored := Inst.wakeHint_active hact
    exact ⟨runInst_change hs hignored, runInst_change hs hignored⟩

/-! ### The close of a step -/

section Close

variable {i : Inst} {x step : Nat}

/-- A late norm that is awaited and was not announced is counted, logged and marked in the record of a step still open (R189). -/
theorem Inst.normLate_announced (hawaits : i.awaitsNorm x step = true) (hfirst : (i.ctx x).run.normLate.contains step = false) :
    i.normLate x step =
      (let j := ((i.count Cnt.normLate 1).event 0x1901 (some x) [(24, 6, step)]).modRun x (fun r =>
         { r with normLate := insertNat step r.normLate })
       if i.stepClosed x step then j else j.modMark x step (fun m => { m with flags := m.flags ||| 2 })) := by
  simp only [Inst.normLate, hawaits, hfirst]
  rfl

/-- A norm nothing waits for is not late (R189). -/
theorem Inst.normLate_not_awaited (h : i.awaitsNorm x step = false) : i.normLate x step = i := by
  simp [Inst.normLate, h]

/-- A step that may not close stays open (R33). -/
theorem Inst.stepClose_open (h : i.mayClose x step = false) : i.stepClose x step = i := by
  unfold Inst.stepClose
  split
  · rfl
  · simp [h]

end Close

/-- Settles O5: the branches of a close and of a late norm. -/
theorem stepClosing : Obligations.StepClosing := by
  intro s k x step hs i
  refine ⟨?closes, fun h => runInst_change hs (Inst.stepClose_open h),
    fun hawaits hfirst => runInst_change hs (Inst.normLate_announced hawaits hfirst),
    fun h => runInst_change hs (Inst.normLate_not_awaited h)⟩
  case closes =>
    intro m himage hruns hmay
    refine runInst_change hs ?_
    have hopen : ¬ (!i.running || !i.mayClose x step) = true := by simp [hruns, hmay]
    unfold Inst.stepClose
    rw [show (s.seen k).image x = some m from himage]
    exact if_neg hopen

/-! ### Updates -/

section Updates

variable {i : Inst}

/-- The first candidate that starts, skips or halts is the one (R24). -/
theorem Inst.startFirst_done {j : Inst} {a : Nat × Nat × Nat} {rest : List (Nat × Nat × Nat)} (h : i.tryUnit a.1 a.2.1 a.2.2 = .done j) :
    i.startFirst (a :: rest) = j := by
  simp only [Inst.startFirst, h]

/-- An update starts on an `Inst` that runs, once what arrived with it has landed (R24). -/
theorem Inst.updateStart_running {us : List Upset} (h : (i.upsets us).running = true) :
    i.updateStart us = (Inst.startFirst (i.upsets us).startOrder (i.upsets us)).pump :=
  if_pos h

/-- The tile of an update in flight waits for the array or is parked off it (R200, R201). -/
theorem Inst.updateWriteback_held {f : Flight} {rest : List Flight} (hfirst : i.opt.flights = f :: rest)
    (hheld : f.tile.any (fun n => i.arrHolds (.tile f.ctx f.layer n f.step)) = true) : i.updateWriteback = i := by
  simp only [Inst.updateWriteback, hfirst, if_pos hheld]

/-- Nothing in flight, nothing to write back. -/
theorem Inst.updateWriteback_none (h : i.opt.flights = []) : i.updateWriteback = i := by
  simp only [Inst.updateWriteback, h]

/-- The oldest update in flight writes its chunks, as its home or as a stand-in, and finishes its ranges (R27, R125). -/
theorem Inst.updateWriteback_free {f : Flight} {rest : List Flight} {m : MapImage} (hfirst : i.opt.flights = f :: rest)
    (hfree : f.tile.any (fun n => i.arrHolds (.tile f.ctx f.layer n f.step)) = false) (himage : i.image f.ctx = some m) :
    i.updateWriteback = (f.ranges.foldl (fun (i : Inst) q => i.finishRange m f q)
      (f.newChunks.foldl (fun (i : Inst) c => if f.standin.isSome then i.writeStandin m f c else i.writeHome m f c)
        { i with opt := { i.opt with flights := rest } })).pump := by
  have hmap : ({ i with opt := { i.opt with flights := rest } } : Inst).image f.ctx = some m := himage
  simp only [Inst.updateWriteback, hfirst, if_neg (ne_true_of_eq_false hfree), hmap]

/-- The update in flight of a range of this home (R27, R33). -/
theorem Inst.updateWriteback_home {f : Flight} {rest : List Flight} {m : MapImage} (hfirst : i.opt.flights = f :: rest)
    (hfree : f.tile.any (fun n => i.arrHolds (.tile f.ctx f.layer n f.step)) = false) (himage : i.image f.ctx = some m)
    (hown : f.standin = none) :
    i.updateWriteback = (f.ranges.foldl (fun (i : Inst) q => i.finishRange m f q)
      (f.newChunks.foldl (fun (i : Inst) c => i.writeHome m f c) { i with opt := { i.opt with flights := rest } })).pump := by
  rw [Inst.updateWriteback_free hfirst hfree himage]
  simp [hown]

/-- The update in flight of a range this `Inst` stands in for (R125, R126). -/
theorem Inst.updateWriteback_standin {f : Flight} {rest : List Flight} {m : MapImage} {l : Home} (hfirst : i.opt.flights = f :: rest)
    (hfree : f.tile.any (fun n => i.arrHolds (.tile f.ctx f.layer n f.step)) = false) (himage : i.image f.ctx = some m)
    (hfor : f.standin = some l) :
    i.updateWriteback = (f.ranges.foldl (fun (i : Inst) q => i.finishRange m f q)
      (f.newChunks.foldl (fun (i : Inst) c => i.writeStandin m f c) { i with opt := { i.opt with flights := rest } })).pump := by
  rw [Inst.updateWriteback_free hfirst hfree himage]
  simp [hfor]

end Updates

/-- Settles O6: updates start in order, and the oldest in flight is written back unless the array holds its tile. -/
theorem updatesRun : Obligations.UpdatesRun := by
  intro s k hs i
  refine ⟨fun us h => runInst_change hs (Inst.updateStart_running h), ?first,
    fun f rest m hfirst hfree himage hown => runInst_change hs (Inst.updateWriteback_home hfirst hfree himage hown),
    fun f rest m l hfirst hfree himage hfor => runInst_change hs (Inst.updateWriteback_standin hfirst hfree himage hfor),
    fun f rest hfirst hheld => runInst_change hs (Inst.updateWriteback_held hfirst hheld),
    fun h => runInst_change hs (Inst.updateWriteback_none h)⟩
  case first =>
    intro j a rest horder hdone hruns
    have hstarts : ((s.seen k).upsets []).startFirst ((s.seen k).upsets []).startOrder = j := by
      rw [show ((s.seen k).upsets []).startOrder = a :: rest from horder]
      exact Inst.startFirst_done hdone
    exact runInst_change hs ((Inst.updateStart_running (us := []) hruns).trans (congrArg Inst.pump hstarts))

/-- Settles O7: a chunk with a slot is written there; its version before is none where the slot was never written. -/
theorem writebackRecordsChunk : Obligations.WritebackRecordsChunk := by
  intro i m f c a hslot
  simp only [Inst.writeHome, hslot]
  cases i.isValid a <;> rfl

end Sys2Proof.Machine
end

section
/-! PROOFS. Block architecture (R35 to R42, R117): what a command to one `Inst` leaves of the others, what a fault an `Inst` finds in
itself leaves, how a sleep ends, and the front of the queue. -/

namespace Sys2Proof.Machine

/-! ### Commands to one `Inst` of the die -/

/-- An `Inst` that a change of the die leaves alone is left alone by the command that makes this change, on any supply. -/
theorem runDie_leaves {f : Die → Vector Inst 8 → Die × Vector Inst 8} {j : InstId} {s t : State} (hf : ∀ d v, (f d v).2[j] = v[j])
    (h : runDie f s = .next t) : t.insts[j] = s.insts[j] := by
  cases hs : s.supply with
  | on => rw [runDie_on hs] at h; cases h; exact hf s.die s.insts
  | off => rw [runDie_off hs] at h; cases h; rfl
  | stopped => rw [runDie_stopped hs] at h; cases h

/-- Settles O53: each command addressed to one `Inst` is a change of the die that leaves the others. -/
theorem otherInstancesStand : Obligations.OtherInstancesStand := by
  intro c k j s t hc hj ht
  obtain ⟨f, hexec, hleaves⟩ := exec_inst_leaves c k hc
  rw [hexec] at ht
  exact runDie_leaves (fun d v => hleaves d v j hj) ht

/-! ### A fault an `Inst` finds in itself -/

/-- Settles O23, by all that such a fault changes. -/
theorem selfFaultState : Obligations.SelfFaultState := by
  intro i cause detail h
  obtain ⟨v, r, t, o, e⟩ := i.selfFault_frame cause detail h
  simp [e]

section Faulted

variable {i : Inst} (c d : Nat)

/-- An `Inst` that is FAULTED already stays as it is. -/
theorem Inst.selfFault_of_faulted (h : i.pw.state = .faulted) : i.selfFault c d = i := by
  simp only [Inst.selfFault, if_pos h]

/-- Whatever state it was in, the `Inst` ends FAULTED, and the accesses it held still wait (R333). -/
theorem Inst.selfFault_faulted : (i.selfFault c d).pw.state = .faulted ∧ (i.selfFault c d).ctl.stalled = i.ctl.stalled := by
  by_cases h : i.pw.state = .faulted
  · rw [Inst.selfFault_of_faulted c d h]; exact ⟨h, rfl⟩
  · obtain ⟨v, r, t, o, e⟩ := i.selfFault_frame c d h
    rw [e]; exact ⟨rfl, rfl⟩

/-- The result of a request for OFF changes the event ring, the counters and the trace (R327). -/
theorem Inst.offResult_frame (i : Inst) :
    ∃ r t o, i.offResult c = { i with ctl := { i.ctl with logs := { i.ctl.logs with ring := r } }, telem := t, out := o } := by
  obtain ⟨r, t, e, -⟩ := Inst.event_frame 0x1008 none [(20, 1, c)] (i.emitOut (.offResult c))
  exact ⟨r, t, _, e⟩

/-- The request for OFF of a FAULTED `Inst` is refused (R327). -/
theorem Inst.offJudge_faulted (b : Bool) (h : i.pw.state = .faulted) :
    i.offJudge b = Inst.offResult 1 { i with pw := { i.pw with offFromReq := false } } := by
  simp [Inst.offJudge, Inst.offCode, h]

/-- A FAULTED `Inst` drops a request for OFF that waited; the rest of its power unit and the accesses it holds stand (R327). -/
theorem Inst.sleepEnds_frame (h : i.pw.state = .faulted) :
    ∃ r t o, i.sleepEnds = { i with pw := { i.pw with offFromReq := false },
                                    ctl := { i.ctl with logs := { i.ctl.logs with ring := r } }, telem := t, out := o } := by
  cases hreq : i.pw.offFromReq with
  | true =>
    obtain ⟨r, t, o, e⟩ := Inst.offResult_frame 1 { i with pw := { i.pw with offFromReq := false } }
    refine ⟨r, t, o, ?_⟩
    rw [Inst.sleepEnds, if_pos ⟨h, hreq⟩, Inst.offJudge_faulted _ h, e]
  | false =>
    have hsame : i.sleepEnds = i := if_neg fun ⟨_, hdue⟩ => ne_true_of_eq_false hreq hdue
    refine ⟨i.ctl.logs.ring, i.telem, i.out, ?_⟩
    rw [hsame, ← hreq]

/-- A fault that ends a sleep leaves the `Inst` FAULTED, with that cause where it was not FAULTED before, and the accesses it held are
still to be judged (R42, R333). -/
theorem Inst.sleepEnds_selfFault (i : Inst) :
    (i.selfFault c d).sleepEnds.pw.state = .faulted ∧ (i.selfFault c d).sleepEnds.ctl.stalled = i.ctl.stalled ∧
      (i.pw.state ≠ .faulted → (i.selfFault c d).sleepEnds.pw.selfCause = c) := by
  obtain ⟨hstate, hheld⟩ := Inst.selfFault_faulted (i := i) c d
  obtain ⟨r, t, o, e⟩ := Inst.sleepEnds_frame hstate
  rw [e]
  refine ⟨hstate, hheld, fun h => ?_⟩
  obtain ⟨_, _, _, _, e⟩ := i.selfFault_frame c d h
  simp [e]

end Faulted

/-! ### The ends of a sleep -/

/-- The `Inst` that wakes is ACTIVE with its wake over; the rest of it but telemetry stands (R325). -/
theorem Inst.wakes_frame (i : Inst) : ∃ t, i.wakes = { i with pw := { i.pw with state := .active, waking := false }, telem := t } := by
  obtain ⟨t, e, -⟩ := Inst.count_frame Cnt.wakes 1
    { i.setPState .active with pw := { (i.setPState .active).pw with waking := false } }
  exact ⟨t, e⟩

section Sleep

variable {k : InstId} {s : State}

/-- A command that changes an `Inst` of a running die and then judges the accesses it held (R42), where the change agrees with `g` on
the `Inst` as it is seen. -/
theorem runDie_settle {f g : Inst → Inst} (hs : s.supply = .on) (h : f (s.seen k) = g (s.seen k)) :
    runDie (fun d v => settle k (onInst k f d v)) s = .next ((s.change k g).settled k) := by
  rw [runDie_on hs]
  simp only [State.settled, State.change, ← h]
  rfl

/-- Where the changed `Inst` holds no access, there is none to judge. -/
theorem State.settled_change {g : Inst → Inst} (hheld : (g (s.seen k)).ctl.stalled = []) : (s.change k g).settled k = s.change k g :=
  State.settled_none (by rw [State.change_at, Inst.arrange_ctl, hheld])

/-- The wake of a sleeping `Inst` ends once the PLL is locked: held accesses first, then the front end and the request for OFF (R325). -/
theorem exec_wakeDone_asleep (hs : s.supply = .on) (hsleep : (s.seen k).pw.state = .doze ∨ (s.seen k).pw.state = .nap)
    (hwake : (s.seen k).pw.waking = true) (hpll : s.die.pll = true) :
    exec (.wakeDone k) s = .next (((s.change k Inst.wakes).settled k).change k Inst.afterWake) := by
  have hwakes : dieWake k s.die s.insts = _ := if_pos ⟨hsleep, hwake, hpll⟩
  change runDie (dieWake k) s = _
  rw [runDie_on hs, hwakes]
  rfl

/-- The end of a wake that is not running changes nothing. -/
theorem exec_wakeDone_idle (hs : s.supply = .on)
    (h : (s.seen k).pw.waking = false ∨ s.die.pll = false ∨ ((s.seen k).pw.state ≠ .doze ∧ (s.seen k).pw.state ≠ .nap)) :
    exec (.wakeDone k) s = .next s := by
  have hno : ¬ (((s.seen k).pw.state = .doze ∨ (s.seen k).pw.state = .nap) ∧ (s.seen k).pw.waking = true ∧ s.die.pll = true) := by
    rintro ⟨hsleep, hwake, hpll⟩
    rcases h with h | h | ⟨hdoze, hnap⟩
    · simp [h] at hwake
    · simp [h] at hpll
    · exact hsleep.elim hdoze hnap
  have hsame : dieWake k s.die s.insts = (s.die, s.insts) := if_neg hno
  change runDie (dieWake k) s = _
  rw [runDie_on hs, hsame]

/-- A command that ends a sleep by a fault: FAULTED with its cause, and the held accesses judged so (R42, R333). -/
theorem fault_ends_sleep {f : Inst → Inst} (c : Nat) (hs : s.supply = .on) (hf : f (s.seen k) = (s.seen k).selfFault c 0) :
    let shut := fun (i : Inst) => (i.selfFault c 0).sleepEnds
    let command := runDie (fun d v => settle k (onInst k (fun x => (f x).sleepEnds) d v)) s
    command = .next ((s.change k shut).settled k) ∧
      ((s.seen k).ctl.stalled = [] → command = .next (s.change k shut)) ∧
      ((s.change k shut).insts[k]).pw.state = .faulted ∧
      ((s.seen k).pw.state ≠ .faulted → ((s.change k shut).insts[k]).pw.selfCause = c) := by
  intro shut command
  obtain ⟨hstate, hheld, hcause⟩ := Inst.sleepEnds_selfFault c 0 (s.seen k)
  have hrun : command = .next ((s.change k shut).settled k) := runDie_settle hs (congrArg Inst.sleepEnds hf)
  refine ⟨hrun, fun hnone => ?_, ?_, fun h => ?_⟩
  · rw [hrun, State.settled_change (hheld.trans hnone)]
  · rw [State.change_at]; exact hstate
  · rw [State.change_at]; exact hcause h

end Sleep

/-- Settles O22: the end of a wake, its timeout, and an emergency shutdown. -/
theorem wakeEnds : Obligations.WakeEnds := by
  intro s k hs i woken timedOut shut
  obtain ⟨t, hwoken⟩ : ∃ t, woken i = { i with pw := { i.pw with state := .active, waking := false }, telem := t } := i.wakes_frame
  have hwakes : (s.change k woken).insts[k] = (woken i).arrange := State.change_at s k woken
  refine ⟨fun hsleep hwake hpll => ?done, ⟨fun j h => ?off, fun j h => ?pump⟩, exec_wakeDone_idle hs, fun hwake => ?timeout, fun hwake => ?idle,
    fault_ends_sleep 0x19 hs rfl⟩
  case done =>
    have hrun : exec (.wakeDone k) s = .next (((s.change k woken).settled k).change k Inst.afterWake) :=
      exec_wakeDone_asleep hs hsleep hwake hpll
    refine ⟨hrun, ?_, ?_, fun hheld => ?_⟩
    · rw [hwakes, Inst.arrange_pw, hwoken]
    · rw [hwakes, Inst.arrange_pw, hwoken]
    · rw [hrun, State.settled_change]
      change (woken i).ctl.stalled = []
      rw [hwoken]
      exact hheld
  case off => simp only [Inst.afterWake, h, if_true]
  case pump => simp [Inst.afterWake, h]
  case timeout => exact fault_ends_sleep 0x15 hs (if_pos hwake)
  case idle =>
    have hsame : (s.seen k).wakeTimeout = s.seen k := if_neg (ne_true_of_eq_false hwake)
    exact runDie_settle hs (congrArg Inst.sleepEnds hsame)

/-! ### The queue -/

/-- Settles O51: `step` on a queue with a front, on an empty one of a running die, and on an empty one of any other. -/
theorem stepRunsFrontCommand : Obligations.StepRunsFrontCommand := by
  refine ⟨fun c s => rfl, fun s hempty hs => ?_, fun s hempty hs => ?_⟩
  · simp only [step, hempty, State.tick, hs]
  · cases hsup : s.supply with
    | on => exact absurd hsup hs
    | off => simp only [step, hempty, State.tick, hsup]
    | stopped => simp only [step, hempty, State.tick, hsup]

end Sys2Proof.Machine
end

section
/-! PROOFS. State spaces (R52, R60, R61, R67 to R73, R101, R157, R165): the bytes of a memory, the maps of a context from their
load to their release, and the guarded registers of an `Inst` (R303). -/

namespace Sys2Proof.Machine

/-! ### The bytes of a memory -/

section Bytes

variable {a e lo x : Nat} {c m m' : Memory}

theorem Memory.wfFrom_cons {k : Nat} {v : Byte} :
    Memory.wfFrom lo ((k, v) :: m) = true ↔ lo ≤ k ∧ v ≠ 0 ∧ Memory.wfFrom (k + 1) m = true := by
  simp only [Memory.wfFrom, Bool.and_eq_true, decide_eq_true_eq, and_assoc]

/-- No address of a memory lies below that from which it is canonical. -/
theorem Memory.wfFrom_le (h : Memory.wfFrom lo m = true) : ∀ p ∈ m, lo ≤ p.1 := by
  induction m generalizing lo with
  | nil => simp
  | cons cell t ih =>
    obtain ⟨k, v⟩ := cell
    obtain ⟨hlo, -, ht⟩ := Memory.wfFrom_cons.mp h
    intro p hp
    rcases List.mem_cons.mp hp with rfl | hp
    · exact hlo
    · exact Nat.le_of_succ_le (Nat.le_trans (Nat.succ_le_succ hlo) (ih ht p hp))

/-- An address that is not listed reads as zero (log entry 4). -/
theorem Memory.read_unlisted (h : ∀ p ∈ m, p.1 ≠ x) : m.read x = 0 := by
  induction m with
  | nil => rfl
  | cons cell t ih =>
    rw [Memory.read, if_neg (h cell List.mem_cons_self)]
    exact ih fun p hp => h p (List.mem_cons_of_mem _ hp)

/-- An address that the second part does not list is read in the first. -/
theorem Memory.read_append_left (h : ∀ p ∈ m', p.1 ≠ x) : Memory.read x (m ++ m') = m.read x := by
  induction m with
  | nil => exact Memory.read_unlisted h
  | cons cell t ih => simp only [List.cons_append, Memory.read, ih]

/-- An address that the first part does not list is read in the second. -/
theorem Memory.read_append_right (h : ∀ p ∈ m, p.1 ≠ x) : Memory.read x (m ++ m') = m'.read x := by
  induction m with
  | nil => rfl
  | cons cell t ih =>
    rw [List.cons_append, Memory.read, if_neg (h cell List.mem_cons_self)]
    exact ih fun p hp => h p (List.mem_cons_of_mem _ hp)

theorem Memory.read_below (hm : Memory.wfFrom lo m = true) (hx : x < a) : (Memory.below a m).read x = m.read x := by
  induction m generalizing lo with
  | nil => rfl
  | cons cell t ih =>
    obtain ⟨k, v⟩ := cell
    obtain ⟨-, -, ht⟩ := Memory.wfFrom_cons.mp hm
    simp only [Memory.below]
    split
    · simp only [Memory.read, ih ht]
    · next hk =>
      refine (Memory.read_unlisted fun p hp => ?_).symm
      rcases List.mem_cons.mp hp with rfl | hp
      · omega
      · have := Memory.wfFrom_le ht p hp; omega

theorem Memory.read_from (hx : a ≤ x) : (Memory.from_ a m).read x = m.read x := by
  induction m with
  | nil => rfl
  | cons cell t ih =>
    obtain ⟨k, v⟩ := cell
    simp only [Memory.from_]
    split
    · next hk => rw [ih, Memory.read, if_neg (by omega)]
    · rfl

/-- A memory whose cells from `a` to `e` are replaced by those of `c` reads as `c` there and as before elsewhere. -/
theorem Memory.read_spliced (hm : m.wf = true) (hae : a ≤ e) (hc : c.within a e) :
    Memory.read x (Memory.below a m ++ c ++ Memory.from_ e m) = if a ≤ x ∧ x < e then c.read x else m.read x := by
  have hbelow : ∀ p ∈ Memory.below a m, p.1 < a := Memory.below_lt a m
  have habove : ∀ p ∈ Memory.from_ e m, e ≤ p.1 := Memory.wfFrom_le (Memory.from_wf e hm)
  rcases Nat.lt_or_ge x a with hxa | hax
  · rw [List.append_assoc, Memory.read_append_left, Memory.read_below hm hxa, if_neg (by omega)]
    intro p hp
    rcases List.mem_append.mp hp with hp | hp
    · have := hc p hp; omega
    · have := habove p hp; omega
  · rw [List.append_assoc, Memory.read_append_right fun p hp => by have := hbelow p hp; omega]
    rcases Nat.lt_or_ge x e with hxe | hex
    · rw [Memory.read_append_left fun p hp => by have := habove p hp; omega, if_pos ⟨hax, hxe⟩]
    · rw [Memory.read_append_right fun p hp => by have := hc p hp; omega, Memory.read_from hex, if_neg (by omega)]

end Bytes

section WrittenBytes

variable {a n x : Nat} {b : Bytes} {m : Memory}

theorem cellsAt_within (a : Nat) (b : Bytes) : Memory.within a (a + b.length) (cellsAt a b) :=
  fun p hp => ⟨Memory.wfFrom_le (cellsAt_wf a b) p hp, cellsAt_lt a b p hp⟩

theorem read_cellsAt (a : Nat) {k : Nat} (hk : k < b.length) : (cellsAt a b).read (a + k) = b[k] := by
  induction b generalizing a k with
  | nil => exact absurd hk (Nat.not_lt_zero k)
  | cons v t ih =>
    -- A zero byte is not listed, and is read as zero all the same.
    have hlist : (cellsAt a (v :: t)).read (a + k) = if k = 0 then v else (cellsAt (a + 1) t).read (a + k) := by
      by_cases hv : v = 0
      · rw [cellsAt, if_pos hv]
        split
        · next h0 => exact hv ▸ Memory.read_unlisted fun p hp => by have := cellsAt_within (a + 1) t p hp; omega
        · rfl
      · have hfirst : a = a + k ↔ k = 0 := by omega
        simp only [cellsAt, if_neg hv, Memory.read, hfirst]
    cases k with
    | zero => exact hlist
    | succ k =>
      rw [hlist, if_neg (Nat.succ_ne_zero k), show a + (k + 1) = a + 1 + k by omega]
      exact ih (a + 1) (Nat.lt_of_succ_lt_succ hk)

theorem Memory.read_write (hm : m.wf = true) :
    (m.write a b).read x = if a ≤ x ∧ x < a + b.length then (cellsAt a b).read x else m.read x :=
  Memory.read_spliced hm (Nat.le_add_right a _) (cellsAt_within a b)

theorem Memory.read_erase (hm : m.wf = true) : (m.erase a n).read x = if a ≤ x ∧ x < a + n then 0 else m.read x := by
  have h := Memory.read_spliced (x := x) (c := []) hm (Nat.le_add_right a n) (fun p hp => absurd hp List.not_mem_nil)
  rwa [List.append_nil] at h

/-- Cells in canonical form from `a` on are read one byte after another. -/
theorem cellsRead_eq (hm : Memory.wfFrom a m = true) : cellsRead n a m = (List.range n).map fun k => m.read (a + k) := by
  induction n generalizing a m with
  | zero => rfl
  | succ n ih =>
    have hrange : (List.range (n + 1)).map (fun k => m.read (a + k)) = m.read a :: (List.range n).map fun k => m.read (a + 1 + k) := by
      simp [List.range_succ_eq_map, Nat.add_assoc, Nat.add_comm 1]
    rw [hrange]
    cases m with
    | nil => exact congrArg _ (ih rfl)
    | cons cell t =>
      obtain ⟨k, v⟩ := cell
      obtain ⟨hle, hv, ht⟩ := Memory.wfFrom_cons.mp hm
      by_cases hk : k = a
      · subst hk
        have hlater : ∀ j, Memory.read (k + 1 + j) ((k, v) :: t) = Memory.read (k + 1 + j) t := fun j => if_neg (by omega)
        have hfirst : Memory.read k ((k, v) :: t) = v := if_pos rfl
        simp only [cellsRead, ih ht, hlater, hfirst, if_true]
      · have hlater : Memory.wfFrom (a + 1) ((k, v) :: t) = true := Memory.wfFrom_cons.mpr ⟨by omega, hv, ht⟩
        have hfirst : Memory.read a ((k, v) :: t) = 0 :=
          Memory.read_unlisted fun p hp => by have := Memory.wfFrom_le hlater p hp; omega
        simp only [cellsRead, if_neg hk, ih hlater, hfirst]

theorem Memory.readN_eq (a n : Nat) (hm : m.wf = true) : m.readN a n = (List.range n).map fun k => m.read (a + k) := by
  rw [Memory.readN, cellsRead_eq (Memory.from_wf a hm)]
  exact List.map_congr_left fun k _ => Memory.read_from (Nat.le_add_right a k)

end WrittenBytes

/-- Settles O56: a memory is read byte by byte, and each byte is in the part written or erased, or in the rest. -/
theorem memoryCells : Obligations.MemoryCells := by
  intro a n b m hm
  have hwrite := Memory.write_wf a b hm
  have herase := Memory.erase_wf a n hm
  refine ⟨hwrite, herase, ?written, ?erased, fun x hx => ?besideWrite, fun x hx => ?besideErase, fun x => ?byte⟩
  case written =>
    rw [Memory.readN_eq a _ hwrite]
    refine List.ext_getElem (by simp) fun k hlen hk => ?_
    rw [List.getElem_map, List.getElem_range, Memory.read_write hm, if_pos (by omega), read_cellsAt a hk]
  case erased =>
    rw [Memory.readN_eq a n herase, List.eq_replicate_iff]
    refine ⟨by simp, fun v hv => ?_⟩
    obtain ⟨k, hk, rfl⟩ := List.mem_map.mp hv
    have := List.mem_range.mp hk
    rw [Memory.read_erase hm, if_pos (by omega)]
  case besideWrite => rw [Memory.read_write hm, if_neg (by omega)]
  case besideErase => rw [Memory.read_erase hm, if_neg (by omega)]
  case byte => simp [Memory.readN_eq x 1 hm]

/-! ### The end of a release -/

section Release

variable {i : Inst} {x : Nat}

/-- A released context: that of reset but for what the map page shows of loads and commits, and the scalars pending (R52, R73). -/
def CtxSt.released (c : CtxSt) : CtxSt :=
  { CtxSt.freeCtx with
    map := { CtxSt.freeCtx.map with staged := c.map.staged, slot := c.map.slot, barred := c.map.barred, loadResult := c.map.loadResult,
                                    commitResult := c.map.commitResult, preservedUsed := c.map.preservedUsed },
    user := { CtxSt.freeCtx.user with pending := c.user.pending } }

/-- A release that is done (R73). -/
theorem Inst.releaseDone_releasing (hrun : i.running = true) (hstate : (i.ctx x).map.state = 2) :
    i.releaseDone x = (i.setCtx x (i.ctx x).released).event 0x1104 (some x) [] :=
  if_pos (by rw [hrun, hstate]; rfl)

end Release

/-- Settles O31: the context is as `CtxSt.released` has it, and logging leaves contexts, memories, parameters and power as they are. -/
theorem releaseFrees : Obligations.ReleaseFrees := by
  intro i x hrun hstate j
  obtain ⟨r, t, hlog, -⟩ := Inst.event_frame 0x1104 (some x) [] (i.setCtx x (i.ctx x).released)
  have hj : j = _ := (Inst.releaseDone_releasing hrun hstate).trans hlog
  have hsame : j.ctx x = (i.ctx x).released := by rw [hj]; exact Inst.ctx_setCtx_same x _ i
  have hother : ∀ y, y ≠ x → j.ctx y = i.ctx y := fun y hy => by rw [hj]; exact Inst.ctx_setCtx_other hy _ i
  have himage : j.image x = none := by rw [Inst.image, hsame]; rfl
  have hmem : j.mem = i.mem := by rw [hj]; rfl
  have hparams : j.opt.params = i.opt.params := by rw [hj]; rfl
  have hpower : j.pw = i.pw := by rw [hj]; rfl
  rw [hsame]
  exact ⟨rfl, himage, rfl, rfl, rfl, rfl, hother, hmem, hparams, hpower⟩

/-! ### Maps -/

section Maps

variable {i : Inst} {x : Nat} {d : Descr} {us : List Upset}

/-- A MAP_LOAD that may start and whose source was read (R67). -/
theorem Inst.mapLoad_started (h : i.startable 0x01 = some d) (b : Bytes) : i.mapLoad (.data b) us = i.takeCmd.mapLoaded d b us := by
  simp only [Inst.mapLoad, h]

/-- A MAP_LOAD from host memory whose read failed (R287; log entry 97). -/
theorem Inst.mapLoad_hostFails (h : i.startable 0x01 = some d) (e : Nat) (harg : d.arg.testBit 0 = false) :
    i.mapLoad (.error e) us = (i.takeCmd.hostReadError e (d.a64 2)).refuseFree d := by
  simp [Inst.mapLoad, h, harg]

/-- A MAP_LOAD from the image buffer of the DMC reads no host memory, so none of its errors is one of R287 (log entry 97). -/
theorem Inst.mapLoad_dmcFails (h : i.startable 0x01 = some d) (e : Nat) (harg : d.arg.testBit 0 = true) :
    i.mapLoad (.error e) us = i.takeCmd.refuseFree d := by
  simp [Inst.mapLoad, h, harg]

/-- A MAP_LOAD that may not start yet (R317). -/
theorem Inst.mapLoad_waits (h : i.startable 0x01 = none) (src : HostData) : i.mapLoad src us = i.startWait 0x01 := by
  simp only [Inst.mapLoad, h]

/-- A commit point of a COMMITTING map, the updates that had started written back (R70). -/
theorem Inst.commitPoint_reached {n : MapImage} (hrun : i.running = true) (hslot : (i.ctx x).map.slot = 2)
    (hstaged : (i.ctx x).map.staged = some n) (hflight : i.opt.flights.any (fun f => f.ctx = x) = false) :
    i.commitPoint x = if n.release then i.commitRelease x n else i.commitLive x n := by
  simp only [Inst.commitPoint, hslot, hstaged, hrun, hflight, Bool.not_true, Bool.or_false, Bool.false_eq_true, if_false]

/-- The end of a rollback that is due (R101). -/
theorem Inst.rollbackDone_due (hrun : i.running = true) (hdue : (i.ctx x).memb.rollback = true) :
    i.rollbackDone x =
      (((i.rollbackAll (i.cod.opens.filter (fun o => o.ctx = x))).modMemb x (fun m => { m with rollback := false })).settleWaiters).pump :=
  if_pos (by rw [hrun, hdue]; rfl)

end Maps

/-- Settles O30: each command by the case of its meaning that holds on the `Inst` as it is seen. -/
theorem mapsChange : Obligations.MapsChange := by
  intro s k x hs i
  refine ⟨fun d b us h => ?load, fun d e us h harg => ?hostFails, fun d e us h harg => ?dmcFails, fun h src => ?waits,
    fun n hrun hslot hstaged hflight => ?commit, fun hrun hdue => ?rollback, fun hrun hstate => ?release⟩
  case load => exact runInst_change hs (Inst.mapLoad_started h b)
  case hostFails => exact runInst_change hs (Inst.mapLoad_hostFails h e harg)
  case dmcFails => exact runInst_change hs (Inst.mapLoad_dmcFails h e harg)
  case waits => exact runInst_change hs (Inst.mapLoad_waits h src.data)
  case commit =>
    have hcommit := Inst.commitPoint_reached hrun hslot hstaged hflight
    exact ⟨fun hlive => runInst_change hs (congrArg Inst.judgeReserve (hcommit.trans (if_neg (ne_true_of_eq_false hlive)))),
      fun hrelease => runInst_change hs (congrArg Inst.judgeReserve (hcommit.trans (if_pos hrelease)))⟩
  case rollback => exact runInst_change hs (Inst.rollbackDone_due hrun hdue)
  case release => exact runInst_change hs (congrArg Inst.judgeReserve (Inst.releaseDone_releasing hrun hstate))

/-! ### Guarded registers of an `Inst` -/

section Guarded

variable {init : Initiator} {k : InstId} {page off : Nat} {v w : Word} {s : State}

/-- An access that an `Inst` serves does to the die what its effect does on the `Inst` as it is seen. -/
theorem State.serve_congr {write : Bool} {f g : Inst → Inst × BusRes} (h : f (s.seen k) = g (s.seen k)) :
    s.serve k write f = s.serve k write g := by
  simp only [State.serve, h]

/-- GUARD_B at a page of an ACTIVE `Inst` is served whatever its initiator's rights, which the sequence judges (R299, R303). -/
theorem regWrite_guardB (hbus : s.busTo init k) (hpage : instPage page = true) :
    regWrite init page 0x024 w s = .next (s.serve k true (fun i => i.guardB init (s.die.ctxSel init) page w)) := by
  have hrange : 0x10 ≤ page := by
    simp only [instPage, Bool.and_eq_true, decide_eq_true_eq] at hpage
    exact hpage.1
  refine regWrite_header hbus rfl hpage ?_ ?_ ?_ ?_
  · exact decide_eq_false (by omega)
  all_goals simp only [regKey]; omega

/-- GUARD_B of a sequence that is accepted, where the register makes of an `Inst` that has closed the sequence what `f` says, with the
outcome `o`: this outcome enters the order log (R303, R307). -/
theorem regWrite_guardB_opens {f : Inst → Inst} {o : Inst → Nat} (hpage : instPage page = true) (hopens : s.opens init k page off v)
    (hw : w = ~~~v) (happlied : ∀ j, Inst.applyGuarded (Initiator.bank init) (s.die.ctxSel init) page off v j = (f j, some (o j))) :
    regWrite init page 0x024 w s = .next (s.serve k true (fun i =>
      let j := i.ctlMap (CtlSt.guardEnd (Initiator.bank init) page)
      ((f j).order (Initiator.bank init) page off v (o j) (ordCtx (s.die.ctxSel init) page off v), .done))) := by
  obtain ⟨hbus, hopen⟩ := hopens
  have hguard : guardOpen (s.seen k).ctl init (s.seen k).view.testLock (s.seen k).view.time page off v := hopen
  rw [regWrite_guardB hbus hpage]
  refine congrArg _ (State.serve_congr ?_)
  rw [guardB_open hguard hw]
  simp only [happlied]

end Guarded

/-- A write of JCS_MAP_COMMIT, the register holding the bits it implements (R69). -/
def Inst.mapCommitStored (b : Nat) (v : Word) (i : Inst) : Inst × Bool :=
  (i.ctlMap (CtlSt.store b 0x11 0x104 (v &&& 0xFFFF003F))).mapCommit b v

/-- Settles O46: in each order, what `Inst.applyGuarded` makes of its register. -/
theorem guardedOrders : Obligations.GuardedOrders := by
  intro init k w v s hw b closed
  refine ⟨fun h => ?offline, fun h => ?evacuate, fun h => ?evacuateEnd, fun h => ?flush, fun h => ?erase, fun h => ?commit⟩
  case offline => exact regWrite_guardB_opens (f := Inst.instOffline) (o := fun _ => Ord.applied) rfl h rfl fun _ => rfl
  case evacuate =>
    exact regWrite_guardB_opens (f := fun j => { j with pw := { j.pw with evacuate := true } }) (o := fun _ => Ord.applied) rfl h rfl
      fun _ => rfl
  case evacuateEnd =>
    exact regWrite_guardB_opens (f := fun j => { j with pw := { j.pw with evacuate := false } }) (o := fun _ => Ord.applied) rfl h rfl
      fun _ => rfl
  case flush => exact regWrite_guardB_opens (f := Inst.cmdqFlush b) (o := fun _ => Ord.applied) rfl h hw fun _ => rfl
  case erase =>
    exact regWrite_guardB_opens (f := fun j => (j.coldErase (bits v.toNat 5 0)).1)
      (o := fun j => if (j.coldErase (bits v.toNat 5 0)).2 then Ord.applied else Ord.refused) rfl h hw fun _ => rfl
  case commit =>
    exact regWrite_guardB_opens (f := fun j => (j.mapCommitStored b v).1.pump)
      (o := fun j => if (j.mapCommitStored b v).2 then Ord.applied else Ord.refused) rfl h hw fun _ => rfl

end Sys2Proof.Machine
end

section
/-! PROOFS. Codes (R74, R79): the arithmetic of GF(2^8) and the listed coefficients of the code. -/

namespace Sys2Proof.Machine

/-! ### Maps that commute with the factor 2 -/

theorem gfXtime_eq (a : Byte) : gfXtime a = (a <<< 1) ^^^ (if a.msb then 0x1D else 0) := by
  unfold gfXtime
  split <;> simp

theorem gfXtime_xor (a b : Byte) : gfXtime (a ^^^ b) = gfXtime a ^^^ gfXtime b := by
  have hfold : (if (a ^^^ b).msb then (0x1D : Byte) else 0) = (if a.msb then 0x1D else 0) ^^^ (if b.msb then 0x1D else 0) := by
    rw [BitVec.msb_xor]
    cases a.msb <;> cases b.msb <;> rfl
  rw [gfXtime_eq, gfXtime_eq, gfXtime_eq, BitVec.shiftLeft_xor_distrib, hfold]
  ac_rfl

/-- A map of the field that is additive and commutes with the factor 2; so it commutes with every factor (`GfLinear.map_gfMul`). -/
structure GfLinear (f : Byte → Byte) : Prop where
  map_xor : ∀ a b, f (a ^^^ b) = f a ^^^ f b
  map_xtime : ∀ a, f (gfXtime a) = gfXtime (f a)

theorem GfLinear.map_zero {f : Byte → Byte} (hf : GfLinear f) : f 0 = 0 := by
  have h := hf.map_xor 0 0
  rwa [BitVec.xor_self, BitVec.xor_self] at h

theorem GfLinear.map_gfMulAux {f : Byte → Byte} (hf : GfLinear f) (a b : Byte) (n : Nat) (acc : Byte) :
    f (gfMulAux a b n acc) = gfMulAux (f a) b n (f acc) := by
  induction n generalizing acc with
  | zero => rfl
  | succ n ih => rw [gfMulAux, gfMulAux, ih, hf.map_xor, hf.map_xtime, apply_ite f, hf.map_zero]

theorem GfLinear.map_gfMul {f : Byte → Byte} (hf : GfLinear f) (a b : Byte) : f (gfMul a b) = gfMul (f a) b := by
  rw [gfMul, hf.map_gfMulAux, hf.map_zero, gfMul]

theorem gfMulAux_xor (a b c : Byte) (n : Nat) (x y : Byte) :
    gfMulAux (a ^^^ b) c n (x ^^^ y) = gfMulAux a c n x ^^^ gfMulAux b c n y := by
  induction n generalizing x y with
  | zero => rfl
  | succ n ih =>
    have hstep : gfXtime (x ^^^ y) ^^^ (if c.getLsbD n then a ^^^ b else 0) =
        (gfXtime x ^^^ (if c.getLsbD n then a else 0)) ^^^ (gfXtime y ^^^ (if c.getLsbD n then b else 0)) := by
      rw [gfXtime_xor]
      split
      · ac_rfl
      · simp
    rw [gfMulAux, gfMulAux, gfMulAux, hstep, ih]

theorem gfMul_xor_left (a b c : Byte) : gfMul (a ^^^ b) c = gfMul a c ^^^ gfMul b c := gfMulAux_xor a b c 8 0 0

theorem gfLinear_gfXtime : GfLinear gfXtime := ⟨gfXtime_xor, fun _ => rfl⟩

theorem gfLinear_gfMul (c : Byte) : GfLinear (gfMul · c) := ⟨fun a b => gfMul_xor_left a b c, fun a => (gfLinear_gfXtime.map_gfMul a c).symm⟩

/-! ### The laws of the product -/

/-- The top bit of a shifted element is clear, so the factor 2 folds nothing back and undoes one place of the shift. -/
theorem gfXtime_ushiftRight (a : Byte) (n : Nat) : gfXtime (a >>> (n + 1)) ^^^ (if a.getLsbD n then 1 else 0) = a >>> n := by
  have hmsb : (a >>> (n + 1)).msb = false := by simp
  rw [gfXtime_eq, hmsb]
  ext i hi
  cases i with
  | zero => cases h : a.getLsbD n <;> simp [h]
  | succ i => cases a.getLsbD n <;> simp [Nat.add_comm, Nat.add_left_comm]

/-- With 1 as first operand the loop takes over the second from its top bit down. -/
theorem gfMulAux_one (a : Byte) (n : Nat) : gfMulAux 1 a n (a >>> n) = a := by
  induction n with
  | zero => exact BitVec.ushiftRight_zero a
  | succ n ih => rw [gfMulAux, gfXtime_ushiftRight, ih]

theorem one_gfMul (a : Byte) : gfMul 1 a = a := by
  have hstart : a >>> 8 = 0 := BitVec.ushiftRight_eq_zero (Nat.le_refl 8)
  have h := gfMulAux_one a 8
  rwa [hstart] at h

theorem gfMul_right_comm (a b c : Byte) : gfMul (gfMul a b) c = gfMul (gfMul a c) b := (gfLinear_gfMul c).map_gfMul a b

theorem gfMul_comm (a b : Byte) : gfMul a b = gfMul b a := by
  simpa only [one_gfMul] using gfMul_right_comm 1 a b

theorem gfMul_assoc (a b c : Byte) : gfMul (gfMul a b) c = gfMul a (gfMul b c) := by
  rw [gfMul_comm a b, gfMul_right_comm, gfMul_comm]

theorem gfMul_one (a : Byte) : gfMul a 1 = a := (gfMul_comm a 1).trans (one_gfMul a)

theorem zero_gfMul (a : Byte) : gfMul 0 a = 0 := (gfLinear_gfMul a).map_zero

theorem gfMul_zero (a : Byte) : gfMul a 0 = 0 := (gfMul_comm a 0).trans (zero_gfMul a)

theorem gfMul_xor_right (a b c : Byte) : gfMul a (b ^^^ c) = gfMul a b ^^^ gfMul a c := by
  simp only [gfMul_comm a, gfMul_xor_left]

theorem two_gfMul (a : Byte) : gfMul 2 a = gfXtime a := by
  rw [show (2 : Byte) = gfXtime 1 from rfl, ← gfLinear_gfXtime.map_gfMul, one_gfMul]

/-! ### Powers -/

theorem gfPow_add (a : Byte) (m n : Nat) : gfPow a (m + n) = gfMul (gfPow a m) (gfPow a n) := by
  induction m with
  | zero => rw [Nat.zero_add, gfPow, one_gfMul]
  | succ m ih => rw [Nat.succ_add, gfPow, gfPow, ih, gfMul_assoc]

theorem gfPow_one (a : Byte) : gfPow a 1 = a := gfMul_one a

theorem gfPow_mul (a : Byte) (m n : Nat) : gfPow a (m * n) = gfPow (gfPow a m) n := by
  induction n with
  | zero => rfl
  | succ n ih => rw [Nat.mul_succ, gfPow_add, ih, gfPow, gfMul_comm]

theorem one_gfPow (n : Nat) : gfPow 1 n = 1 := by
  induction n with
  | zero => rfl
  | succ n ih => rw [gfPow, ih, one_gfMul]

theorem gfSq_gfPow (a : Byte) (n : Nat) : gfSq (gfPow a n) = gfPow a (n + n) := (gfPow_add a n n).symm

theorem gfInv_eq_gfPow (a : Byte) : gfInv a = gfPow a 254 := by
  have hsq : gfSq a = gfPow a 2 := by rw [gfPow, gfPow_one, gfSq]
  simp only [gfInv, hsq, gfSq_gfPow, ← gfPow_add]

/-- Where `m` is a period of the powers, an exponent counts modulo `m`. -/
theorem gfPow_mod {a : Byte} {m : Nat} (hm : gfPow a m = 1) (n : Nat) : gfPow a (n % m) = gfPow a n :=
  calc gfPow a (n % m)
      = gfMul (gfPow (gfPow a m) (n / m)) (gfPow a (n % m)) := by rw [hm, one_gfPow, one_gfMul]
    _ = gfPow a n := by rw [← gfPow_mul, ← gfPow_add, Nat.div_add_mod]

/-- The greatest common divisor of two periods of the powers is a period. -/
theorem gfPow_gcd {a : Byte} (m n : Nat) : gfPow a m = 1 → gfPow a n = 1 → gfPow a (Nat.gcd m n) = 1 := by
  induction m, n using Nat.gcd.induction with
  | H0 n => exact fun _ hn => (Nat.gcd_zero_left n).symm ▸ hn
  | H1 m n _ ih => exact fun hm hn => Nat.gcd_rec m n ▸ ih ((gfPow_mod hm n).trans hn) hm

theorem repeat_gfMul (a : Byte) (n : Nat) : Nat.repeat (gfMul a) n 1 = gfPow a n := by
  induction n with
  | zero => rfl
  | succ n ih => rw [Nat.repeat, ih, gfPow]

/-! ### 2 is primitive -/

/-- A power by the two hexadecimal digits of its exponent, which keeps the evaluation of a large power shallow. -/
def gfPowHex (a : Byte) (n : Nat) : Byte := gfMul (gfPow (gfPow a 16) (n / 16)) (gfPow a (n % 16))

theorem gfPow_eq_gfPowHex (a : Byte) (n : Nat) : gfPow a n = gfPowHex a n := by
  rw [gfPowHex, ← gfPow_mul, ← gfPow_add, Nat.div_add_mod]

theorem gfPow_two_255 : gfPow 2 255 = 1 := by
  rw [gfPow_eq_gfPowHex]
  decide +kernel

/-- No proper divisor of 255 is a period of the powers of 2. -/
theorem divisor_eq_of_gfPow_two_eq_one : ∀ d < 256, d ∣ 255 → gfPow 2 d = 1 → d = 255 := by
  simp only [gfPow_eq_gfPowHex]
  decide +kernel

theorem dvd_of_gfPow_two_eq_one {n : Nat} (h : gfPow 2 n = 1) : 255 ∣ n := by
  have hdvd : Nat.gcd n 255 ∣ 255 := Nat.gcd_dvd_right n 255
  have hlt : Nat.gcd n 255 < 256 := Nat.lt_succ_of_le (Nat.le_of_dvd (by decide) hdvd)
  have hgcd : Nat.gcd n 255 = 255 := divisor_eq_of_gfPow_two_eq_one _ hlt hdvd (gfPow_gcd n 255 h gfPow_two_255)
  exact hgcd ▸ Nat.gcd_dvd_left n 255

theorem gfPow_two_ne_of_lt {m n : Nat} (hmn : m < n) (hn : n < 255) : gfPow 2 m ≠ gfPow 2 n := by
  intro h
  have hdiff : gfPow 2 (n - m) = 1 :=
    calc gfPow 2 (n - m)
        = gfPow 2 (n - m + 255) := by rw [gfPow_add, gfPow_two_255, gfMul_one]
      _ = gfPow 2 (n + (255 - m)) := congrArg (gfPow 2) (by omega)
      _ = gfPow 2 (m + (255 - m)) := by rw [gfPow_add, ← h, ← gfPow_add]
      _ = 1 := by rw [Nat.add_sub_cancel' (by omega), gfPow_two_255]
  have := Nat.le_of_dvd (by omega) (dvd_of_gfPow_two_eq_one hdiff)
  omega

theorem gfPow_two_inj {m n : Nat} (hm : m < 255) (hn : n < 255) (h : gfPow 2 m = gfPow 2 n) : m = n := by
  rcases Nat.lt_trichotomy m n with hlt | heq | hgt
  · exact absurd h (gfPow_two_ne_of_lt hlt hn)
  · exact heq
  · exact absurd h.symm (gfPow_two_ne_of_lt hgt hm)

theorem gfPow_two_ne_zero {n : Nat} (hn : n < 255) : gfPow 2 n ≠ 0 := by
  intro h
  have hfull : gfPow 2 (n + (255 - n)) = 0 := by rw [gfPow_add, h, zero_gfMul]
  rw [Nat.add_sub_cancel' (Nat.le_of_lt hn), gfPow_two_255] at hfull
  exact absurd hfull (by decide)

/-- The powers of 2 with exponents below 255. -/
def gfPowersOfTwo : List Byte := (List.range 255).map (gfPow 2)

theorem mem_gfPowersOfTwo {a : Byte} : a ∈ gfPowersOfTwo ↔ ∃ n < 255, gfPow 2 n = a := by
  simp only [gfPowersOfTwo, List.mem_map, List.mem_range]

theorem gfPowersOfTwo_nodup : gfPowersOfTwo.Nodup :=
  List.pairwise_map.mpr (List.pairwise_lt_range.imp_of_mem fun _ hn hlt => gfPow_two_ne_of_lt hlt (List.mem_range.mp hn))

theorem length_le_of_nodup_bytes {l : Bytes} (h : l.Nodup) : l.length ≤ 256 := by
  have hall : l ⊆ (List.range 256).map (BitVec.ofNat 8) := fun a _ =>
    List.mem_map.mpr ⟨a.toNat, List.mem_range.mpr a.isLt, (BitVec.ofNat_toNat 8 a).trans (BitVec.setWidth_eq a)⟩
  have hlen := h.length_le_of_subset hall
  rwa [List.length_map, List.length_range] at hlen

/-- The powers of 2 below 255 differ and are not zero, and no more than 255 elements are not zero. -/
theorem exists_gfPow_two {a : Byte} (ha : a ≠ 0) : ∃ n < 255, gfPow 2 n = a := by
  refine Decidable.byContradiction fun hnone => ?_
  have hzero : 0 ∉ a :: gfPowersOfTwo := by
    rw [List.mem_cons, mem_gfPowersOfTwo]
    rintro (h | ⟨n, hn, h⟩)
    · exact ha h.symm
    · exact gfPow_two_ne_zero hn h
  have hnodup : (0 :: a :: gfPowersOfTwo).Nodup :=
    List.nodup_cons.mpr ⟨hzero, List.nodup_cons.mpr ⟨fun h => hnone (mem_gfPowersOfTwo.mp h), gfPowersOfTwo_nodup⟩⟩
  have hlen := length_le_of_nodup_bytes hnodup
  rw [List.length_cons, List.length_cons, gfPowersOfTwo, List.length_map, List.length_range] at hlen
  omega

theorem gfMul_gfInv {a : Byte} (ha : a ≠ 0) : gfMul a (gfInv a) = 1 := by
  obtain ⟨n, -, rfl⟩ := exists_gfPow_two ha
  calc gfMul (gfPow 2 n) (gfInv (gfPow 2 n))
      = gfPow (gfPow 2 n) 255 := by rw [gfInv_eq_gfPow, ← gfPow]
    _ = gfPow (gfPow 2 255) n := by rw [← gfPow_mul, Nat.mul_comm, gfPow_mul]
    _ = 1 := by rw [gfPow_two_255, one_gfPow]

/-- Settles O57: a product is linear in its first operand and commutes, and the powers of 2 have the period 255. -/
theorem fieldArithmetic : Obligations.FieldArithmetic := by
  simp only [Obligations.FieldArithmetic, repeat_gfMul]
  refine ⟨fun a b c => ⟨gfMul_xor_left a b c, gfMul_xor_right a b c⟩, fun a => ⟨one_gfMul a, zero_gfMul a, gfMul_zero a⟩,
    two_gfMul, gfMul_assoc 2, gfInv_eq_gfPow, fun a => gfMul_gfInv, fun a ha => ?primitive, ?powers⟩
  case primitive =>
    obtain ⟨n, hn, rfl⟩ := exists_gfPow_two ha
    exact ⟨n, by omega, rfl, fun m hm h => gfPow_two_inj (by omega) hn h⟩
  case powers =>
    simp only [gfPow_eq_gfPowHex]
    decide +kernel

/-! ### The coefficients of the code -/

/-- Settles O60: each listed coefficient is computed (R76). -/
theorem codeCoefficients : Obligations.CodeCoefficients := by
  unfold Obligations.CodeCoefficients
  decide +kernel

end Sys2Proof.Machine
end

section
/-! PROOFS. Fault service (R82, R127, R128, R131, R132, R200, R201, R243, R244, R416): how the jobs of an `Inst` end or go on. -/

namespace Sys2Proof.Machine

section Jobs

variable {i : Inst} {id : Nat} {j : Job}

/-- A decode that waits for the array, or is parked off it, does not end yet (R200, R201). -/
theorem Inst.decodeDone_held (hjob : i.job id = some j) (hheld : i.arrHolds (.decode id) = true) : i.decodeDone id = i := by
  simp [Inst.decodeDone, hjob, hheld]

/-- A stand-in's decode whose turn has come settles its rows; if none is then left open they are handed on (R127). -/
theorem Inst.decodeDone_settled {a : Inst} {n : Job} {m : MapImage} (hrun : i.running = true) (hjob : i.job id = some j)
    (hdecode : j.isDecode = true) (hturn : j.queued = false) (hphase : j.phase = 0) (hfree : i.arrHolds (.decode id) = false)
    (ha : (i.settleRows j.ctx j.rows).1.putJob { j with rows := (i.settleRows j.ctx j.rows).2 } = a)
    (hnext : (a.advanceJob id).job id = some n) (himage : (a.advanceJob id).image j.ctx = some m)
    (hrows : n.rows.all (fun r => r.done.isSome || r.failed.isSome) = true) :
    i.decodeDone id = ((a.advanceJob id).rowsDone m n).pump := by
  have hends : (!i.running || !j.isDecode || j.queued || decide (j.phase ≠ 0) || i.arrHolds (.decode id)) = false := by
    simp [hrun, hdecode, hturn, hphase, hfree]
  simp only [Inst.decodeDone, hjob, hends, ha, hnext, himage, hrows, Bool.false_eq_true, if_false, if_true]

/-- A roll-forward in phase 3 goes on to its next entry (R128). -/
theorem Inst.rollForward_next {x q r : Nat} {n : Job} {m : MapImage} {l : Home} (hrun : i.running = true)
    (hsaturated : (i.ctx x).memb.saturated = false) (hfenced : (i.ctx x).memb.fenced = false) (hjob : i.rollJob x q = some j)
    (hnext : (i.settleRoll j.id).job j.id = some n) (himage : (i.settleRoll j.id).image x = some m) (hfor : n.standinOf = some (l, r))
    (hphase : n.phase = 3) : i.rollForward x q = ((i.settleRoll j.id).rollNext m n l r).pump := by
  simp [Inst.rollForward, hrun, hsaturated, hfenced, hjob, hnext, himage, hfor, hphase]

/-- The vectors of disagreeing pivots are read again (R416). -/
theorem Inst.vectorReread_job (hrun : i.running = true) (hjob : i.job id = some j) :
    i.vectorReread id =
      (((i.rereadRows j.ctx id j.kind j.rows).1.putJob { j with rows := (i.rereadRows j.ctx id j.kind j.rows).2 }).advanceJob id).pump := by
  simp [Inst.vectorReread, hrun, hjob]

/-- At the timeout of a disagreement the pivot that records the lower version counts as lost for its row (R416; log entry 148). -/
theorem Inst.vectorTimeout_job (hrun : i.running = true) (hjob : i.job id = some j) :
    i.vectorTimeout id =
      ((i.putJob { j with rows := j.rows.map (fun r => if (i.rowDisagree j.ctx r).isEmpty then r else
        match i.lowerPivot j.ctx r with | some p => r.without p false | none => r) }).advanceJob id).pump := by
  rw [Inst.vectorTimeout, hjob]
  exact if_neg (by simp [hrun])

/-- Sources that answered INSTANCE_OFF are forgotten as such where no plan does without them (R132, R138). -/
theorem Inst.offReplan_job (hrun : i.running = true) (hjob : i.job id = some j) :
    i.offReplan id =
      ((i.putJob { j with rows := j.rows.map (fun r =>
        if r.done.isSome || r.failed.isSome || r.off.isEmpty || (i.rowAsks j.ctx r).2.2 then r else { r with off := [] }) }).advanceJob id).pump := by
  simp only [Inst.offReplan, hjob, hrun, Bool.not_true, Bool.false_eq_true, if_false]

/-! ### Repairs -/

/-- A repair that waits for the array, or is parked off it, does not end yet (R200, R201). -/
theorem Inst.chunkRepairDone_held (hjob : i.job id = some j) (hheld : i.arrHolds (.decode id) = true) : i.chunkRepairDone id = i := by
  simp [Inst.chunkRepairDone, hjob, hheld]

section Repair

variable {r : RowJob} (hrun : i.running = true) (hjob : i.job id = some j) (hrows : j.rows = [r]) (hfree : i.arrHolds (.decode id) = false)
include hrun hjob hrows hfree

/-- The repair of a data chunk takes its step (R243). -/
theorem Inst.chunkRepairDone_chunk {slot line : Nat} {scrub : Bool} (hkind : j.kind = .chunkRepair slot line scrub) :
    i.chunkRepairDone id = (i.chunkRepairStep j r slot line scrub).pump := by
  simp [Inst.chunkRepairDone, hrun, hjob, hrows, hfree, hkind]

/-- The repair of a SHADOW chunk takes its step (R245). -/
theorem Inst.chunkRepairDone_shadow {slot line : Nat} (hkind : j.kind = .shadowRepair slot line) :
    i.chunkRepairDone id = (i.shadowRepairStep j r slot line).pump := by
  simp [Inst.chunkRepairDone, hrun, hjob, hrows, hfree, hkind]

/-- The repair of a parity row that has its sources writes the row back (R244). -/
theorem Inst.rowRepairEnd_ready {f : FragId} {lines : List Nat} {check : Bool} {h : HeldRow} {g : StripeRec}
    (hkind : j.kind = .rowRepair f lines check) (hstands : r.failed = none) (hready : i.rowReady j.ctx r = true)
    (hheld : i.heldRow j.ctx f = some h) (hgeom : i.geomOf j.ctx f.stripe = some g) :
    i.rowRepairEnd id = ((i.rowRepairApply j f lines check r h g.geom).pump).settleChecks := by
  simp [Inst.rowRepairEnd, Inst.rowRepairDone, hrun, hjob, hrows, hfree, hkind, hstands, hready, hheld, hgeom]

end Repair

end Jobs

/-- Settles O17: each command by what its meaning is on the job it names, as the `Inst` is seen. -/
theorem faultServiceJobs : Obligations.FaultServiceJobs := by
  constructor
  · intro s k id j hs i hrun
    refine ⟨fun hjob => ⟨fun hheld => ?held, ?decode, ?reread, ?timeout, ?replan⟩, ?roll⟩
    case held =>
      exact ⟨runInst_change hs (Inst.decodeDone_held hjob hheld), runInst_change hs (Inst.chunkRepairDone_held hjob hheld)⟩
    case decode =>
      intro hdecode hturn hphase hfree a n m hnext himage hrows
      exact runInst_change hs (Inst.decodeDone_settled hrun hjob hdecode hturn hphase hfree rfl hnext himage hrows)
    case reread => exact runInst_change hs (Inst.vectorReread_job hrun hjob)
    case timeout => exact runInst_change hs (Inst.vectorTimeout_job hrun hjob)
    case replan => exact runInst_change hs (Inst.offReplan_job hrun hjob)
    case roll =>
      intro x q hsaturated hfenced hjob n m l r hnext himage hfor hphase
      exact runInst_change hs (Inst.rollForward_next hrun hsaturated hfenced hjob hnext himage hfor hphase)
  · intro s k id j r hs i hrun hjob hrows hfree
    refine ⟨fun slot line scrub hkind => ?chunk, fun slot line hkind => ?shadow, ?row⟩
    case chunk => exact runInst_change hs (Inst.chunkRepairDone_chunk hrun hjob hrows hfree hkind)
    case shadow => exact runInst_change hs (Inst.chunkRepairDone_shadow hrun hjob hrows hfree hkind)
    case row =>
      intro f lines check h g hkind hstands hready hheld hgeom
      exact runInst_change hs (Inst.rowRepairEnd_ready hrun hjob hrows hfree hkind hstands hready hheld hgeom)

end Sys2Proof.Machine
end

section
/-! PROOFS. Delta coding (R91, R98, R103, R196, R200, R201): the order of step versions, the coding queue's next operation, and the end of
a preconditioner refresh. -/

namespace Sys2Proof.Machine

/-! ### Step versions -/

/-- The difference that `newer` forms without a sign is the one modulo 2^32 (R98). -/
theorem cast_versionDiff (a b : Nat) : (((a + 2 ^ 32 - b % 2 ^ 32) % 2 ^ 32 : Nat) : Int) = ((a : Int) - b) % 2 ^ 32 := by
  omega

/-- The order of versions holds of any two numbers, not only of those below 2^32. -/
theorem newer_iff {a b : Nat} :
    newer a b = true ↔ 1 ≤ ((a : Int) - b) % 2 ^ 32 ∧ ((a : Int) - b) % 2 ^ 32 ≤ 2 ^ 31 - 1 := by
  rw [← cast_versionDiff, newer, Bool.and_eq_true, decide_eq_true_iff, decide_eq_true_iff]
  omega

section Entry

variable {e : VecEntry} {prev : Nat} {first : Bool}

theorem prevMatches_committed (h : e.committed = true) : prevMatches e prev first = true ↔ prev = e.version ∧ first = false := by
  simp [prevMatches, h]

theorem prevMatches_uncommitted (h : e.committed = false) : prevMatches e prev first = first := by
  simp [prevMatches, h]

end Entry

/-- Settles O58: versions by their difference modulo 2^32, PREV_VERSION by whether the entry is committed. -/
theorem versionOrder : Obligations.VersionOrder := by
  refine ⟨fun a b _ _ => newer_iff, fun e prev first => ⟨prevMatches_committed, fun hfirst => ?_⟩⟩
  rw [prevMatches_uncommitted hfirst]

/-! ### The coding queue -/

section Queue

variable {i : Inst} {h : Home} {r : Backlog} {o : Owe}

/-- A record in staging needs no reading back (R103). -/
theorem Inst.readSpilled_staged (hstaged : r.spillAt = none) : i.readSpilled r = i := by
  simp only [Inst.readSpilled, hstaged]

/-- The next holder in turn is served its oldest record, if reading it back leaves the `Inst` running (R91, R103, R242). -/
theorem Inst.codingServe_next (hrun : i.running = true) (hturn : roundRobin i.cod.lastHolder i.oweHomes = some h)
    (howes : i.nextOwe h = some (r, o)) (hread : (i.readSpilled r).running = true) :
    i.codingServe = ((i.readSpilled r).serveOwe r o).pump := by
  simp [Inst.codingServe, hrun, hturn, howes, hread]

/-- Nothing is sent where no holder is owed anything that may be sent now (R91). -/
theorem Inst.codingServe_idle (hturn : roundRobin i.cod.lastHolder i.oweHomes = none) : i.codingServe = i := by
  simp [Inst.codingServe, hturn]

end Queue

/-! ### The end of a refresh -/

/-- A refresh that is done: marked so, and the tile's next ones run in class 4 again if it held none (R196, R352). -/
def Inst.refreshMarked (r : Refresh) (i : Inst) : Inst :=
  Inst.refreshTimely r
    { i with opt := { i.opt with refreshes := i.opt.refreshes.map (fun q => if q = r then { q with done := true } else q) } }

/-- One piece of the pending roots written over its scratch chunk, where the chunk has a slot (R196, R200). -/
def Inst.writeRoots (version : Nat) (i : Inst) (p : ChunkId × Bytes) : Inst :=
  match i.chunkSlot p.1 with
  | some a => i.writeChunk a p.2 { version := version, digest := crc64 p.2, attr := 0 }
  | none => i

section Refresh

variable {i : Inst} {x layer tile : Nat} {r : Refresh} {m : MapImage} (himage : i.image x = some m)
  (hfirst : i.opt.refreshes.find? (fun r => decide (r.ctx = x) && decide (r.layer = layer) && decide (r.tile = tile) && !r.done) = some r)
include himage hfirst

/-- A refresh whose work the array holds back is not done (R201). -/
theorem Inst.refreshDone_held (hheld : i.arrHolds (.refresh x layer tile r.due) = true) : i.refreshDone x layer tile = i := by
  simp only [Inst.refreshDone, hfirst, himage, hheld]

/-- A refresh that is free to end writes its roots, in pieces of a chunk, over the scratch chunks of its tile (R196, R200). -/
theorem Inst.refreshDone_free {l : LayerRec} {b : List Word} (hlayer : m.layer layer = some l) (hblock : i.paramBlock x l.paramBlock = some b)
    (hfree : i.arrHolds (.refresh x layer tile r.due) = false) :
    i.refreshDone x layer tile =
      ((m.blockChunks x layer (pcWords b).scratchCls tile).zip (piecesOf 4096 (bytesOfWords
          ((rootsOf (pcWords b) (m.head.passes == 9) r).1.flatten ++ (rootsOf (pcWords b) (m.head.passes == 9) r).2.flatten)))).foldl
        (Inst.writeRoots ((r.due - (pcWords b).rootLag) % 2 ^ 32)) (i.refreshMarked r) := by
  simp only [Inst.refreshDone, hfirst, himage, hfree, hlayer, Option.bind_some, hblock]
  rfl

end Refresh

/-- Settles O10: the queue by whether a holder is in turn, a refresh by whether the array holds it back. -/
theorem codingServes : Obligations.CodingServes := by
  intro s k hs i
  refine ⟨?staged, ?spilled, ?idle, ?held, ?done⟩
  case staged =>
    intro h r o hrun hturn howes hstaged
    have hback : i.readSpilled r = i := Inst.readSpilled_staged hstaged
    have hserve : i.codingServe = (i.serveOwe r o).pump := by
      rw [Inst.codingServe_next hrun hturn howes (hback.symm ▸ hrun), hback]
    exact runInst_change hs hserve
  case spilled =>
    intro h r o hrun hturn howes hread
    exact runInst_change hs (Inst.codingServe_next hrun hturn howes hread)
  case idle =>
    intro hturn
    exact runInst_change hs (Inst.codingServe_idle hturn)
  case held =>
    intro x layer tile r m himage hfirst hheld
    exact runInst_change hs (Inst.refreshDone_held himage hfirst hheld)
  case done =>
    intro x layer tile r m l b himage hlayer hblock hfirst hfree
    exact runInst_change hs (Inst.refreshDone_free himage hfirst hlayer hblock hfree)

end Sys2Proof.Machine
end

section
/-! PROOFS. The fabric port (R117, R118, R136, R160, R263, R271, R276, R278, R279): where an arriving operation goes in each power state, and
what the endpoint's notices and the heartbeats make of the partners. -/

namespace Sys2Proof.Machine

/-! ### An operation arrives -/

section Arrival

variable {k : InstId} {s : State} {o : InOp} {i : Inst} {b : HandshakeBody}

/-- The command that brings an operation makes any change that agrees with the arrival on the `Inst` as it is seen. -/
theorem arrival_change {g : Inst → Inst} (hs : s.supply = .on) (ho : o.formed) (h : (s.seen k).arrive o = g (s.seen k)) :
    exec (arrival k o) s = .next (s.change k g) := by
  rw [arrival_runs ho]
  exact runInst_change hs h

/-- A handshake that resets no channel is one without CHANNEL_RESET (R271). -/
theorem InOp.channelReset_eq_false (hreset : o.resets = false) (hbody : o.body = .handshake b) : b.channelReset = false := by
  rwa [InOp.resets, hbody, OpBody.isReset] at hreset

/-! #### At an ACTIVE `Inst` -/

/-- An operation that arrives whole ends what an earlier attempt brought of it (R136). -/
theorem Inst.arrive_whole (hact : i.pw.state = .active) (hcut : o.body.cut = false) :
    i.arrive o = ((i.forgetPartial o).arriveWhole o).checkAllDone.pump := by
  simp only [Inst.arrive, hact, Inst.arriveRunning, hcut, Bool.false_eq_true, if_false]

/-- An operation that is cut off is kept for the rest of it (R136; log entry 145). -/
theorem Inst.arrive_cut (hact : i.pw.state = .active) (hcut : o.body.cut = true) : i.arrive o = (i.keepPartial o).checkAllDone.pump := by
  simp only [Inst.arrive, hact, Inst.arriveRunning, hcut, if_true]

/-- Keeping what has arrived of an operation touches the list of such parts alone (R136; log entry 145). -/
theorem Inst.keepPartial_frame (o : InOp) (i : Inst) : ∃ l, i.keepPartial o = { i with fab := { i.fab with partials := l } } := by
  simp only [Inst.keepPartial]
  split
  · exact ⟨_, rfl⟩
  · split
    · exact ⟨_, rfl⟩
    · exact ⟨_, rfl⟩

/-- A channel reset that passes the receiver's checks acts whatever the channel holds (R271). -/
theorem Inst.arriveWhole_reset (hbody : o.body = .handshake b) (hreset : b.channelReset = true)
    (hpass : (i.resetChan (hdrHome o.hdr) b.seqBase).receive o.hdr (.handshake b) = none) :
    i.arriveWhole o =
      (let a := (i.resetChan (hdrHome o.hdr) b.seqBase).applyHandshake o.hdr b
       a.1.respond o.hdr 0x0C 0 a.2) := by
  simp only [Inst.arriveWhole, hbody, hreset, if_true, hpass]

/-- On a channel without a base, an operation that does not reset it is answered INSTANCE_OFF (R271, R329). -/
theorem Inst.arriveWhole_baseless (hreset : o.resets = false) (hbase : (i.chan (hdrHome o.hdr)).inNext = none) :
    i.arriveWhole o = i.respond o.hdr o.body.code 0 (respOf St.instOff 0 0) := by
  cases hbody : o.body with
  | handshake b =>
    have hflag : b.channelReset = false := InOp.channelReset_eq_false hreset hbody
    simp only [Inst.arriveWhole, hbody, hflag, hbase, Bool.false_eq_true, if_false, OpBody.code]
  | _ => simp only [Inst.arriveWhole, hbody, hbase]

/-! #### At an `Inst` that sleeps -/

section Asleep

variable (hsleep : i.pw.state = .doze ∨ i.pw.state = .nap)
include hsleep

/-- A front end with space keeps the operation, and the `Inst` wakes (R276). -/
theorem Inst.arrive_buffered (hspace : (i.fab.frontEnd.filter (fun b => !b.refused)).length < 64) :
    i.arrive o = Inst.wakeUp { i with fab := { i.fab with frontEnd := i.fab.frontEnd ++ [⟨o, false⟩] } } := by
  obtain h | h := hsleep <;> simp only [Inst.arrive, h, if_pos hspace]

/-- A full front end refuses the operation (R276). -/
theorem Inst.arrive_full (hfull : 64 ≤ (i.fab.frontEnd.filter (fun b => !b.refused)).length) : i.arrive o = i.frontRefuse o := by
  obtain h | h := hsleep <;> simp only [Inst.arrive, h, if_neg (Nat.not_lt.mpr hfull)]

end Asleep

/-- An operation that resets no channel is refused with its SEQ kept for the end of the wake (R276). -/
theorem Inst.frontRefuse_plain (hreset : o.resets = false) :
    i.frontRefuse o =
      Inst.respond o.hdr o.body.code 0 (ansRetry 6) { i with fab := { i.fab with frontEnd := i.fab.frontEnd ++ [⟨o, true⟩] } } := by
  cases hbody : o.body with
  | handshake b =>
    have hflag : b.channelReset = false := InOp.channelReset_eq_false hreset hbody
    simp only [Inst.frontRefuse, hbody, hflag, Bool.false_eq_true, if_false]
  | _ => simp only [Inst.frontRefuse, hbody]

/-- A channel reset acts although it is refused: what the front end held of the channel goes with it (R271, R276). -/
theorem Inst.frontRefuse_reset (hbody : o.body = .handshake b) (hreset : b.channelReset = true) :
    i.frontRefuse o =
      (let j := i.resetChan (hdrHome o.hdr) b.seqBase
       Inst.respond o.hdr 0x0C 0 (ansRetry 6)
         { j with fab := { j.fab with frontEnd := j.fab.frontEnd.filter (fun q => hdrHome q.op.hdr ≠ hdrHome o.hdr) } }) := by
  simp only [Inst.frontRefuse, hbody, hreset, if_true]

/-! #### At an `Inst` that is off or starts -/

/-- An `Inst` going to, in or returning from OFF answers INSTANCE_OFF (R276, R329; log entry 14). -/
theorem Inst.arrive_off (hoff : i.pw.state = .goingOff ∨ i.pw.state = .off ∨ i.pw.state = .restoring) :
    i.arrive o = i.respond o.hdr o.body.code 0 (respOf St.instOff 0 0) := by
  obtain h | h | h := hoff <;> simp only [Inst.arrive, h]

section Starting

variable (hstart : i.pw.state = .starting ∨ i.pw.state = .resetting)
include hstart

/-- An `Inst` that starts, or is being reset, answers NOT_READY (R278, R330). -/
theorem Inst.arrive_starting_plain (hreset : o.resets = false) : i.arrive o = i.respond o.hdr o.body.code 0 (ansNotReady 1) := by
  cases hbody : o.body with
  | handshake b =>
    have hflag : b.channelReset = false := InOp.channelReset_eq_false hreset hbody
    obtain h | h := hstart <;> simp only [Inst.arrive, h, hbody, hflag, Bool.false_eq_true, if_false]
  | _ => obtain h | h := hstart <;> simp only [Inst.arrive, h, hbody]

/-- Such an `Inst` resets the channel first where a handshake asks for that (R271, R278). -/
theorem Inst.arrive_starting_reset (hbody : o.body = .handshake b) (hreset : b.channelReset = true) :
    i.arrive o = (i.resetChan (hdrHome o.hdr) b.seqBase).respond o.hdr 0x0C 0 (ansNotReady 1) := by
  obtain h | h := hstart <;> simp only [Inst.arrive, h, hbody, hreset, if_true, OpBody.code]

end Starting

/-- A FAULTED `Inst` answers nothing (R242). -/
theorem Inst.arrive_faulted (hfault : i.pw.state = .faulted) : i.arrive o = i := by
  simp only [Inst.arrive, hfault]

end Arrival

/-- Settles O12: in each power state, by whether the operation resets its channel, has arrived whole and finds space (log entry 145 for
one that is cut off, log entry 14 for RESTORING). -/
theorem operationsAdmitted : Obligations.OperationsAdmitted := by
  intro s k o hs ho i kept
  refine ⟨?reset, ?baseless, ?cut, ?buffered, ?full, ?fullReset, ?off, ?starting, ?startingReset, ?faulted⟩
  case reset =>
    intro b hbody hact hreset hpass
    have hcut : o.body.cut = false := by rw [hbody]; rfl
    exact arrival_change hs ho (by rw [Inst.arrive_whole hact hcut, Inst.arriveWhole_reset hbody hreset hpass])
  case baseless =>
    intro hact hreset hcut hbase
    have hforgot : ((i.forgetPartial o).chan (hdrHome o.hdr)).inNext = none := hbase
    exact arrival_change hs ho (by rw [Inst.arrive_whole hact hcut, Inst.arriveWhole_baseless hreset hforgot])
  case cut =>
    intro hact hcut
    obtain ⟨l, hkept⟩ := i.keepPartial_frame o
    refine ⟨arrival_change hs ho (Inst.arrive_cut hact hcut), ?_⟩
    rw [hkept]
    exact ⟨rfl, rfl, rfl⟩
  case buffered =>
    intro hsleep hspace
    exact arrival_change hs ho (Inst.arrive_buffered hsleep hspace)
  case full =>
    intro hsleep hfull hreset
    exact arrival_change hs ho ((Inst.arrive_full hsleep hfull).trans (Inst.frontRefuse_plain hreset))
  case fullReset =>
    intro b hsleep hfull hbody hreset
    exact arrival_change hs ho ((Inst.arrive_full hsleep hfull).trans (Inst.frontRefuse_reset hbody hreset))
  case off =>
    intro hoff
    exact arrival_change hs ho (Inst.arrive_off hoff)
  case starting =>
    intro hstart hreset
    exact arrival_change hs ho (Inst.arrive_starting_plain hstart hreset)
  case startingReset =>
    intro b hstart hbody hreset
    exact arrival_change hs ho (Inst.arrive_starting_reset hstart hbody hreset)
  case faulted =>
    intro hfault
    exact arrival_change hs ho (Inst.arrive_faulted hfault)

/-! ### The partners -/

section Partners

variable {i : Inst}

/-- A notice of a partner's node counts towards LINK_RATE (R160). -/
theorem Inst.linkNotice_partner {node : Nat} (hpartner : i.partnerNode node = true) :
    i.linkNotice node = { i with hb := { i.hb with linkNotices := i.view.time :: i.hb.linkNotices } } :=
  if_pos hpartner

/-- A notice of any other node counts for nothing (R160). -/
theorem Inst.linkNotice_other {node : Nat} (hother : i.partnerNode node = false) : i.linkNotice node = i :=
  if_neg (ne_true_of_eq_false hother)

/-- An `Inst` with the loss of a node noted (R279). -/
def Inst.lossNoted (node : Nat) (i : Inst) : Inst := { i with fab := { i.fab with losses := insertNat node i.fab.losses } }

/-- At an `Inst` that watches, a loss notice loses the armed partners of the node and parks its channels (R118, R263, R279). -/
theorem Inst.lossNotice_watched {node : Nat} {j : Inst} (hwatch : j.watches = true) (hnoted : (i.linkNotice node).lossNoted node = j) :
    i.lossNotice node =
      (let d := ((j.hb.partners.filter (fun p => decide (p.home.node = node) && p.armed && !p.lost)).map (fun p => p.home)).foldl
         (fun i h => i.declareLost h 0x02) j
       (((d.fab.chans.filter (fun c => decide (c.peer.node = node))).map (fun c => c.peer)).foldl (fun i h => i.park h) d).pump) := by
  have hwatching : ¬ (!j.watches) = true := by simp [hwatch]
  subst hnoted
  exact if_neg hwatching

/-- At an `Inst` that runs, the end of a loss lets the parked channels of the node offer at once (R279; log entry 75). -/
theorem Inst.lossCleared_running {node : Nat} (hrun : i.running = true) :
    i.lossCleared node =
      (let j : Inst := { i with fab := { i.fab with losses := i.fab.losses.filter (· ≠ node) } }
       ((j.fab.chans.filter (fun c => decide (c.peer.node = node) && c.parked)).map (fun c => c.peer)).foldl (fun i h => i.offerAnew h) j) := by
  have hrunning : ¬ (!i.running) = true := by simp [hrun]
  exact if_neg hrunning

/-- An `Inst` with the epoch a partner's heartbeat carries (R117). -/
def Inst.epochNoted (h : Home) (epoch : Nat) (i : Inst) : Inst :=
  { i with hb := { i.hb with partners := i.hb.partners.map (fun q => if q.home = h then { q with epoch := some epoch } else q) } }

section Heartbeat

variable {b : HeartbeatBody} {p : Partner} (hwatch : i.watches = true)
  (hpartner : i.hb.partners.find? (fun p => p.home = ⟨b.srcNode, b.home⟩) = some p) (harmed : p.armed = true) (hheld : p.lost = false)
include hwatch hpartner harmed hheld

/-- A heartbeat of state FAULTED declares its armed partner lost (R118; log entry 74). -/
theorem Inst.heartbeat_faulted (hstate : b.state = 5) :
    i.heartbeat b = ((i.epochNoted ⟨b.srcNode, b.home⟩ b.epoch).declareLost ⟨b.srcNode, b.home⟩ 0x03).pump := by
  simp only [Inst.heartbeat, hpartner, hwatch, harmed, hheld, hstate]
  rfl

/-- A heartbeat of another epoch than the last one declares it lost too (R118; log entry 74). -/
theorem Inst.heartbeat_epochChanged {e : Nat} (hstate : b.state ≠ 5) (hlast : p.epoch = some e) (hother : e ≠ b.epoch) :
    i.heartbeat b = ((i.epochNoted ⟨b.srcNode, b.home⟩ b.epoch).declareLost ⟨b.srcNode, b.home⟩ 0x04).pump := by
  simp [Inst.heartbeat, Inst.epochNoted, hpartner, hwatch, harmed, hheld, hstate, hlast, hother]

/-- Any other heartbeat sets the partner's epoch alone (R117). -/
theorem Inst.heartbeat_alive (hstate : b.state ≠ 5) (hsame : p.epoch = none ∨ p.epoch = some b.epoch) :
    i.heartbeat b = i.epochNoted ⟨b.srcNode, b.home⟩ b.epoch := by
  obtain h | h := hsame <;> simp [Inst.heartbeat, Inst.epochNoted, hpartner, hwatch, harmed, hheld, hstate, h]

end Heartbeat

/-- At an `Inst` that watches, the silence of an armed partner declares it lost (R118, R263). -/
theorem Inst.silence_armed {h : Home} (hwatch : i.watches = true)
    (harmed : i.hb.partners.any (fun p => decide (p.home = h) && p.armed && !p.lost) = true) : i.silence h = (i.declareLost h 0x01).pump :=
  if_pos (by simp [hwatch, harmed])

/-- The silence of any other home changes nothing (R263). -/
theorem Inst.silence_unarmed {h : Home} (hnone : i.hb.partners.any (fun p => decide (p.home = h) && p.armed && !p.lost) = false) :
    i.silence h = i :=
  if_neg (by simp [hnone])

end Partners

/-- Settles O16: notices by the node they name, heartbeats by the state and the epoch they carry, a silence by whether its partner is armed
(log entries 74 and 75). -/
theorem partnersWatched : Obligations.PartnersWatched := by
  intro s k hs i
  refine ⟨fun n d => runInst_on hs, ?bandwidth, ?bandwidthOther, ?loss, ?cleared, ?heartbeat, runInst_on hs, ?silence, ?silenceOther⟩
  case bandwidth =>
    intro n f hpartner
    exact runInst_change hs (Inst.linkNotice_partner hpartner)
  case bandwidthOther =>
    intro n f hother
    exact runInst_change hs (Inst.linkNotice_other hother)
  case loss =>
    intro n hwatch hpartner
    exact runInst_change hs (Inst.lossNotice_watched hwatch (congrArg (Inst.lossNoted n) (Inst.linkNotice_partner hpartner)))
  case cleared =>
    intro n hrun
    exact runInst_change hs (Inst.lossCleared_running hrun)
  case heartbeat =>
    intro b p hwatch hpartner harmed hheld
    refine ⟨fun hstate => ?faulted, fun e hstate hlast hother => ?changed, fun hstate hsame => ?alive⟩
    case faulted => exact runInst_change hs (Inst.heartbeat_faulted hwatch hpartner harmed hheld hstate)
    case changed => exact runInst_change hs (Inst.heartbeat_epochChanged hwatch hpartner harmed hheld hstate hlast hother)
    case alive => exact runInst_change hs (Inst.heartbeat_alive hwatch hpartner harmed hheld hstate hsame)
  case silence =>
    intro h hwatch harmed
    exact runInst_change hs (Inst.silence_armed hwatch harmed)
  case silenceOther =>
    intro h hnone
    exact runInst_change hs (Inst.silence_unarmed hnone)

end Sys2Proof.Machine
end

section
/-! PROOFS. Membership (R145, R152 to R154, R160, R305, R306): what a warning measures, caravans and cutovers, and the end of a precedence
window. -/

namespace Sys2Proof.Machine

/-! ### The measures of a warning -/

theorem setAt_eq_set {α : Type} (n : Nat) (v : α) (l : List α) : setAt n v l = l.set n v := by
  induction l generalizing n with
  | nil => simp only [setAt, List.set_nil]
  | cons x t ih => cases n with
    | zero => simp only [setAt, List.set_cons_zero]
    | succ n => simp only [setAt, List.set_cons_succ, ih]

/-- Setting a warning changes its bit, the event ring and the counters, never the life record (R160). -/
theorem Inst.setWarn_frame (n : Nat) (on : Bool) (measure : Nat) (i : Inst) :
    ∃ w r t, i.setWarn n on measure = { i with memb := { i.memb with warn := w }, ctl := { i.ctl with logs := { i.ctl.logs with ring := r } },
                                               telem := t } ∧ t.life = i.telem.life := by
  unfold Inst.setWarn
  simp only []
  split
  · obtain ⟨r, t, hlog, hlife, -⟩ := Inst.event_frame 0x1601 none [(20, 1, n), (24, 4, measure)] _
    exact ⟨_, r, t, hlog, hlife⟩
  · exact ⟨_, i.ctl.logs.ring, i.telem, rfl, rfl⟩

/-- The life record with the largest measures of the two rates that an evaluation has taken (R160, R354). -/
def LifeSt.measured (ecc links : Nat) (l : LifeSt) : LifeSt :=
  { l with mins := setAt 4 (max (l.mins.getD 4 0) links) (setAt 3 (max (l.mins.getD 3 0) ecc) l.mins) }

theorem LifeSt.measured_mins {l : LifeSt} (ecc links : Nat) (h : 5 ≤ l.mins.length) :
    (l.measured ecc links).mins.getD 3 0 = max (l.mins.getD 3 0) ecc ∧ (l.measured ecc links).mins.getD 4 0 = max (l.mins.getD 4 0) links := by
  have h3 : 3 < l.mins.length := by omega
  have h4 : 4 < l.mins.length := by omega
  simp [LifeSt.measured, setAt_eq_set, List.getD_eq_getElem?_getD, h3, h4]

/-- What an evaluation changes: the measures and the window, the warnings, the life record, the event ring and the counters (R160). -/
theorem Inst.warnings_frame (i : Inst) :
    let ecc := (i.memb.eccWindow.take 60).sum
    let notes := i.hb.linkNotices.filter (fun t => decide (i.view.time < t + 3600 * aonHz))
    ∃ w r t, i.warnings = { i with memb := { i.memb with eccMeasure := ecc, linkMeasure := notes.length,
                                                         eccWindow := 0 :: i.memb.eccWindow.take 59, warn := w },
                                   hb := { i.hb with linkNotices := notes },
                                   ctl := { i.ctl with logs := { i.ctl.logs with ring := r } }, telem := t } ∧
      t.life = i.telem.life.measured ecc notes.length := by
  intro ecc notes
  simp only [Inst.warnings]
  obtain ⟨w, r, t, hfirst, hlife⟩ := Inst.setWarn_frame 0 _ _ _
  rw [hfirst]
  obtain ⟨w', r', t', hsecond, hlife'⟩ := Inst.setWarn_frame 1 _ _ _
  rw [hsecond]
  exact ⟨w', r', t', rfl, hlife'.trans hlife⟩

/-- Settles O20: what an evaluation leaves is read off `warnings_frame`. -/
theorem warningMeasures : Obligations.WarningMeasures := by
  intro i j notes
  obtain ⟨w, r, t, hj, hlife⟩ : ∃ w r t, j = _ ∧ _ := i.warnings_frame
  rw [hj]
  refine ⟨rfl, rfl, rfl, rfl, fun hmins => ?_, rfl, rfl, rfl, rfl, rfl⟩
  simp only [hlife]
  exact LifeSt.measured_mins _ _ hmins

/-! ### Caravans and cutovers -/

/-- The first push not yet sent that may go out: its context's caravan may run, and its home is not lost (R152). -/
def Inst.pushDue (i : Inst) : Option Push :=
  i.memb.pushes.find? (fun p => !p.sent && i.caravanMay p.chunk.ctx && !isLost (i.ctx p.chunk.ctx).memb.lost p.home)

/-- The CUTOVER of a range: the version and the digest of its records, STEP 0 where it was never written (R154; log entry 81). -/
def Inst.cutoverBody (i : Inst) (x q : Nat) (mv : Moving) (rs : List ChunkRec) : CutoverBody :=
  let v := ((rs.head?).map (fun c => c.version)).getD 0
  { range := q, step := if v = 0 then 0 else extendStep (i.ctx x).run.step v, rangeDigest := rangeDigest rs,
    reconstructed := mv.standin.isSome || rs.any (fun c => c.recon) }

section Sends

variable {i : Inst}

/-- An unsent push goes out before any range (R152). -/
theorem Inst.caravanSend_push {p : Push} (hrun : i.running = true) (hdue : i.pushDue = some p) : i.caravanSend = (i.sendPush p).pump := by
  unfold Inst.pushDue at hdue
  simp only [Inst.caravanSend, hrun, hdue, Bool.not_true, Bool.false_eq_true, if_false]

/-- Where no push is due, what the next moving range owes its destination goes out (R153). -/
theorem Inst.caravanSend_range {mv : Moving} {m : MapImage} (hrun : i.running = true) (hnone : i.pushDue = none)
    (hnext : i.nextMoving = some mv) (himage : i.image mv.ctx = some m) : i.caravanSend = (i.caravanRange m mv).pump := by
  unfold Inst.pushDue at hnone
  simp only [Inst.caravanSend, hrun, hnone, hnext, himage, Bool.not_true, Bool.false_eq_true, if_false]

section Cutover

variable {x q : Nat} {mv : Moving} {m : MapImage} (hmoving : i.movingOf x q = some mv) (himage : i.image x = some m)
include hmoving himage

/-- A range that is ready, with all of its records known, cuts over (R154). -/
theorem Inst.cutoverSend_ready {j : Inst} {rs : List ChunkRec} (hrun : i.running = true) (hready : i.cutReady m mv = true)
    (hrecs : i.cutRecs m mv = (j, some rs)) :
    i.cutoverSend x q =
      ((j.send mv.dst x 3 (.cutover x q) (.cutover (i.cutoverBody x q mv rs)) 0).modMoving x q (fun n => { n with cutSent := true })).pump := by
  simp only [Inst.cutoverSend, hmoving, himage, hrun, hready, hrecs, Inst.cutoverBody, Bool.not_true, Bool.or_false, Bool.false_eq_true, if_false]

/-- A range that is not ready does not cut over (R154). -/
theorem Inst.cutoverSend_notReady (hready : i.cutReady m mv = false) : i.cutoverSend x q = i := by
  simp [Inst.cutoverSend, hmoving, himage, hready]

end Cutover

end Sends

/-! ### The end of a precedence window -/

section Window

variable {i : Inst} {x : Nat}

/-- A window that closes resolves its commands by the highest rank among them (R305, R306). -/
theorem Inst.windowClose_open {l : List (Nat × Nat)} (hwindow : (i.ctx x).run.window = some l) :
    i.windowClose x =
      ((i.modRun x (fun r => { r with window := none })).resolve x ((l.map (fun c => cmdRank c.1)).foldl max 0) l []).pump := by
  simp only [Inst.windowClose, hwindow]

theorem Inst.windowClose_none (hwindow : (i.ctx x).run.window = none) : i.windowClose x = i := by
  simp only [Inst.windowClose, hwindow]

end Window

/-- Settles O32: what a caravan, a cutover and the close of a window make of the `Inst` as it is seen (log entry 81). -/
theorem membershipSends : Obligations.MembershipSends := by
  intro s k hs i
  refine ⟨?push, ?range, ?cutover, ?notReady, ?window, ?noWindow⟩
  case push =>
    intro p hrun hdue
    have hpush : i.pushDue = some p := hdue
    exact runInst_change hs (Inst.caravanSend_push hrun hpush)
  case range =>
    intro mv m hrun hnone hnext himage
    have hpush : i.pushDue = none := hnone
    exact runInst_change hs (Inst.caravanSend_range hrun hpush hnext himage)
  case cutover =>
    intro x q mv m j rs hrun hmoving himage hready hrecs
    exact runInst_change hs (Inst.cutoverSend_ready hmoving himage hrun hready hrecs)
  case notReady =>
    intro x q mv m hmoving himage hready
    exact runInst_change hs (Inst.cutoverSend_notReady hmoving himage hready)
  case window =>
    intro x l hwindow
    exact runInst_change hs (Inst.windowClose_open hwindow)
  case noWindow =>
    intro x hwindow
    exact runInst_change hs (Inst.windowClose_none hwindow)

end Sys2Proof.Machine
end

section
/-! PROOFS. The array and the health of an `Inst` (R160, R200, R201, R216, R217, R242, R318, R350, R351, R354): margin samples, self-tests, jobs of
the array and the order of its work. -/

namespace Sys2Proof.Machine

/-! ### Margin samples -/

section Margin

variable {i : Inst}

/-- A margin sample begins where none is under way and sampling is on, at an `Inst` that is ready and not off (R350). -/
theorem Inst.marginStart_begins (t v : Nat) (hready : i.pw.ready = true) (hnone : i.arr.sampling = false)
    (hstate : i.pw.state = .active ∨ i.pw.state = .goingOff ∨ i.pw.state = .doze ∨ i.pw.state = .nap) (hon : i.reg 0x20 0x140 0xE10 ≠ 0) :
    i.marginStart t v = Inst.wakeUp { i with arr := { i.arr with sampling := true, restart := false, lowSupply := true, hbmT := t, hbmV := v,
                                                                 marginFrom := i.view.time },
                                             out := i.out ++ [.supplyStep false] } := by
  have hbegins : ¬ (!i.pw.ready || i.arr.sampling || !(i.running || i.pw.state == .doze || i.pw.state == .nap) ||
      decide (i.reg 0x20 0x140 0xE10 = 0)) = true := by
    obtain h | h | h | h := hstate <;> simp [hready, hnone, hon, h, Inst.running]
  exact if_neg hbegins

/-- No margin sample begins where MARGIN_PERIOD is 0 (R350). -/
theorem Inst.marginStart_disabled (t v : Nat) (hoff : i.reg 0x20 0x140 0xE10 = 0) : i.marginStart t v = i :=
  if_pos (by simp [hoff])

/-- An interrupted sample starts again once no job of the fault service is open (R351). -/
theorem Inst.marginRestart_due (hsampling : i.arr.sampling = true) (hdue : i.arr.restart = true) (hidle : i.flt.jobs = []) :
    i.marginRestart = { i with arr := { i.arr with restart := false, lowSupply := true }, out := i.out ++ [.supplyStep false] } :=
  if_pos (by simp [hsampling, hdue, hidle])

end Margin

/-! ### Self-tests -/

theorem testPasses_iff (r : TestRun) : testPasses r = true ↔ ∀ p ∈ r, p.1 = p.2 := by
  simp [testPasses]

theorem testSteps_le (steps : List TestRun) : testSteps steps ≤ 15 := Nat.min_le_right _ _

/-- Every run below the supply steps passes (R217). -/
theorem testPasses_of_lt_testSteps {steps : List TestRun} {n : Nat} (h : n < testSteps steps) :
    ∃ r, steps[n]? = some r ∧ testPasses r = true := by
  have hn : n < (steps.takeWhile testPasses).length := Nat.lt_of_lt_of_le h (Nat.min_le_left _ _)
  exact ⟨_, List.prefix_iff_getElem?.mp (List.takeWhile_prefix testPasses) n hn, List.all_eq_true.mp List.all_takeWhile _ (List.getElem_mem hn)⟩

/-- The element after those that a test takes while it holds fails the test. -/
theorem getElem?_length_takeWhile {α : Type} {p : α → Bool} {l : List α} {x : α} (h : l[(l.takeWhile p).length]? = some x) : p x = false := by
  induction l with
  | nil => simp at h
  | cons y t ih =>
    cases hy : p y with
    | true => exact ih (by simpa [List.takeWhile_cons, hy] using h)
    | false =>
      obtain rfl : y = x := by simpa [List.takeWhile_cons, hy] using h
      exact hy

/-- Below the limit of 15, the run at the supply steps is the first that does not pass (R217). -/
theorem testPasses_at_testSteps {steps : List TestRun} {r : TestRun} (hlimit : testSteps steps < 15) (h : steps[testSteps steps]? = some r) :
    testPasses r = false := by
  have hlength : testSteps steps = (steps.takeWhile testPasses).length := by
    unfold testSteps at hlimit ⊢
    omega
  rw [hlength] at h
  exact getElem?_length_takeWhile h

/-- Logging leaves the power unit alone. -/
@[simp] theorem Inst.event_pw (c : Nat) (x : Option Nat) (l : List (Nat × Nat × Nat)) (i : Inst) : (i.event c x l).pw = i.pw := by
  obtain ⟨r, t, hlog, -⟩ := Inst.event_frame c x l i
  rw [hlog]

section SelfTest

variable {i : Inst} {nominal : TestRun} (steps : List TestRun)

/-- A self-test that waits for the array, or is parked off it, does not end yet (R200, R201; log entry 142). -/
theorem Inst.selfTestDone_held (hheld : i.arrHolds .selfTest = true) : i.selfTestDone nominal steps = i := by
  simp [Inst.selfTestDone, hheld]

theorem Inst.testTrigger_starting (hstate : i.pw.state = .starting) (hphase : i.pw.start = .selfTest) : i.testTrigger = 1 :=
  if_pos ⟨hstate, hphase⟩

theorem Inst.testTrigger_active (hact : i.pw.state = .active) :
    i.testTrigger = if i.pw.trialTest then 2 else if i.arr.sampling && !i.arr.restart then 3 else 0 := by
  simp [Inst.testTrigger, hact]

/-- The self-test of a start that passes makes the `Inst` ready (R217, R334). -/
theorem Inst.selfTestDone_starting_passes (hstate : i.pw.state = .starting) (hphase : i.pw.start = .selfTest)
    (hfree : i.arrHolds .selfTest = false) (hpass : testPasses nominal = true) :
    i.selfTestDone nominal steps = (Inst.event 0x1A02 none [(20, 1, 1), (21, 1, 0), (22, 1, 1)]
      { i with arr := { i.arr with lastTest := 1 + 2 + 2 ^ 4 * i.arr.steps + 2 ^ 8 } }).becomeReady := by
  simp [Inst.selfTestDone, Inst.testTrigger_starting hstate hphase, hfree, hpass, b2n, hstate]

/-- The self-test of a start that fails is a fault the `Inst` finds in itself (R217). -/
theorem Inst.selfTestDone_starting_fails (hstate : i.pw.state = .starting) (hphase : i.pw.start = .selfTest)
    (hfree : i.arrHolds .selfTest = false) (hfail : testPasses nominal = false) :
    i.selfTestDone nominal steps = (Inst.event 0x1A02 none [(20, 1, 0), (21, 1, 0), (22, 1, 1)]
      { i with arr := { i.arr with lastTest := 2 + 2 ^ 4 * i.arr.steps + 2 ^ 8 } }).selfFault 0x18 0 := by
  simp [Inst.selfTestDone, Inst.testTrigger_starting hstate hphase, hfree, hfail, b2n]

/-- The self-test of a trial that passes makes the trial ready (R217, R339). -/
theorem Inst.selfTestDone_trial_passes (hact : i.pw.state = .active) (htrial : i.pw.trialTest = true)
    (hfree : i.arrHolds .selfTest = false) (hpass : testPasses nominal = true) :
    i.selfTestDone nominal steps =
      (let j := Inst.event 0x1A02 none [(20, 1, 1), (21, 1, 0), (22, 1, 2)]
         { i with arr := { i.arr with lastTest := 1 + 2 + 2 ^ 4 * i.arr.steps + 2 ^ 8 * 2 } }
       { j with pw := { j.pw with trialTest := false, trialReady := true } }) := by
  simp [Inst.selfTestDone, Inst.testTrigger_active hact, htrial, hfree, hpass, b2n]

/-- The self-test of a margin sample that passes at nominal supply ends the sample with its supply steps (R217, R350). -/
theorem Inst.selfTestDone_margin_passes (hact : i.pw.state = .active) (htrial : i.pw.trialTest = false) (hsampling : i.arr.sampling = true)
    (hrestart : i.arr.restart = false) (hfree : i.arrHolds .selfTest = false) (hpass : testPasses nominal = true) :
    i.selfTestDone nominal steps = (Inst.event 0x1A02 none [(20, 1, 1), (21, 1, testSteps steps), (22, 1, 3)]
      { i with arr := { i.arr with lastTest := 1 + 2 + 2 ^ 4 * testSteps steps + 2 ^ 8 * 3 } }).marginDone (testSteps steps) := by
  simp [Inst.selfTestDone, Inst.testTrigger_active hact, htrial, hsampling, hrestart, hfree, hpass, b2n]

end SelfTest

/-! ### Other tasks of the health unit -/

section Tasks

variable {i : Inst}

/-- The rebuild of a threaded buffer pool frees the buffers that nobody owns (R318). -/
theorem Inst.poolRebuild_threaded (hthreaded : i.pool.threaded = true) (hrun : i.running = true) :
    i.poolRebuild =
      (let free := (List.range 512).filter (fun b => (i.pool.owned.find b).isNone)
       Inst.event 0x1E01 none [(20, 2, free.length)] { i with pool := { i.pool with free := free, rebuilding := false } }) :=
  if_neg (by simp [hthreaded, hrun])

/-- A failed HBM channel faults an `Inst` that has its memory powered (R242). -/
theorem Inst.hbmFailure_powered (hoff : i.pw.state ≠ .off) (hrestoring : i.pw.state ≠ .restoring) : i.hbmFailure = i.selfFault 0x12 0 := by
  unfold Inst.hbmFailure
  split
  · contradiction
  · contradiction
  · rfl

section ArrayJob

variable {b : Nat} {j : ArrJob} (hjob : i.arr.jobs.find b = some j)
include hjob

/-- A running job of the array ends with its output written and the buffers that waited for it released (R216, R389). -/
theorem Inst.jobDone_free (hwork : j.work = 2) (hrun : i.running = true) (hfree : i.arrHolds (.submitted b j.serial) = false) :
    i.jobDone b =
      (let n := i.fillBuffers j.outA (i.jobOutput j) ((i.jobReads j).any (fun a => i.spanPoison a))
       ((n.setJob b { j with state := 3, reason := 0, work := 0 }).jobEvent b { j with state := 3, reason := 0, work := 0 }).lateReleases b) := by
  simp only [Inst.jobDone, hjob]
  exact if_pos ⟨hwork, hrun, hfree⟩

/-- A job that waits for the array, or is parked off it, does not end yet (R200, R201; log entry 142). -/
theorem Inst.jobDone_held (hheld : i.arrHolds (.submitted b j.serial) = true) : i.jobDone b = i := by
  simp [Inst.jobDone, hjob, hheld]

end ArrayJob

end Tasks

/-! ### The order of the array -/

section Order

variable {cls : ArrWork → Nat} {a : ArrSt}

@[simp] theorem ArrCells.enter_active (c : ArrCells) : c.enter.active = c.active := by
  unfold ArrCells.enter
  split <;> rfl

/-- Work of class 1 parks work of another class, on the bank that was not active (R200, R201). -/
theorem ArrSt.dispatch_parks {r d : ArrWork} (hrun : a.run = some r) (hfirst : a.queue.find? (fun w => cls w == 1) = some d)
    (hparked : a.parked = none) (hclass : cls r ≠ 1) :
    a.dispatch cls = ArrSt.start d { a with run := none, parked := some r, cells := a.cells.swap } := by
  simp only [ArrSt.dispatch, hrun, hfirst, hparked, if_neg hclass]

/-- Parked work goes on once no work of class 1 is left (R200, R201). -/
theorem ArrSt.dispatch_resumes {p : ArrWork} (hrun : a.run = none) (hfirst : a.queue.find? (fun w => cls w == 1) = none)
    (hparked : a.parked = some p) : a.dispatch cls = { a with run := some p, parked := none, cells := a.cells.swap } := by
  simp only [ArrSt.dispatch, hrun, hfirst, hparked]

/-- Then work of class 2 comes first (R201). -/
theorem ArrSt.dispatch_class2 {w : ArrWork} (hrun : a.run = none) (hfirst : a.queue.find? (fun w => cls w == 1) = none)
    (hparked : a.parked = none) (hsecond : a.queue.find? (fun w => cls w == 2) = some w) : a.dispatch cls = a.start w := by
  simp only [ArrSt.dispatch, hrun, hfirst, hparked, List.findSome?_cons, hsecond]

/-- Nothing but work of class 1 takes the array from what runs on it (R200). -/
theorem ArrSt.dispatch_stays {r : ArrWork} (hrun : a.run = some r) (hfirst : a.queue.find? (fun w => cls w == 1) = none) :
    a.dispatch cls = a := by
  simp only [ArrSt.dispatch, hrun, hfirst]

end Order

/-- Settles O19: each task by the case of its meaning that holds on the `Inst` as it is seen, the array by what it runs and what waits
(log entries 120, 142 and 144). -/
theorem healthTasks : Obligations.HealthTasks := by
  intro s k hs i
  refine ⟨?begins, ?disabled, ?restart, testPasses_iff, ?steps, ?held, ?starting, ?trial, ?margin, runInst_on hs, runInst_on hs, ?pool, ?hbm,
    ?job, ?array⟩
  case begins =>
    intro t v hready hnone hstate hon
    exact runInst_change hs (Inst.marginStart_begins t v hready hnone hstate hon)
  case disabled =>
    intro hoff t v
    exact runInst_change hs (Inst.marginStart_disabled t v hoff)
  case restart =>
    intro hsampling hdue hidle
    exact runInst_change hs (Inst.marginRestart_due hsampling hdue hidle)
  case steps =>
    intro steps
    exact ⟨testSteps_le steps, fun n => testPasses_of_lt_testSteps, fun hlimit r => testPasses_at_testSteps hlimit⟩
  case held =>
    intro hheld nominal steps
    exact runInst_change hs (Inst.selfTestDone_held steps hheld)
  case starting =>
    intro nominal steps hstate hphase hfree
    exact ⟨fun hpass => runInst_change hs (Inst.selfTestDone_starting_passes steps hstate hphase hfree hpass),
      fun hfail => runInst_change hs (Inst.selfTestDone_starting_fails steps hstate hphase hfree hfail)⟩
  case trial =>
    intro nominal steps hact htrial hfree hpass
    exact runInst_change hs (Inst.selfTestDone_trial_passes steps hact htrial hfree hpass)
  case margin =>
    intro nominal steps hact htrial hsampling hrestart hfree hpass
    exact runInst_change hs (Inst.selfTestDone_margin_passes steps hact htrial hsampling hrestart hfree hpass)
  case pool =>
    intro hthreaded hrun
    exact runInst_change hs (Inst.poolRebuild_threaded hthreaded hrun)
  case hbm =>
    intro ⟨hoff, hrestoring⟩
    exact runInst_change hs (Inst.hbmFailure_powered hoff hrestoring)
  case job =>
    intro b j hjob hwork hrun
    exact ⟨fun hfree => runInst_change hs (Inst.jobDone_free hjob hwork hrun hfree),
      fun hheld => runInst_change hs (Inst.jobDone_held hjob hheld)⟩
  case array =>
    intro cls a
    refine ⟨fun r d hrun hfirst hparked hclass => ?parks, fun p hrun hfirst hparked => ?resumes,
      fun w hrun hfirst hparked hsecond => ?second, fun r hrun hfirst => ?stays⟩
    case parks =>
      rw [ArrSt.dispatch_parks hrun hfirst hparked hclass]
      exact ⟨rfl, rfl, ArrCells.enter_active _⟩
    case resumes =>
      rw [ArrSt.dispatch_resumes hrun hfirst hparked]
      exact ⟨rfl, rfl, rfl⟩
    case second => rw [ArrSt.dispatch_class2 hrun hfirst hparked hsecond]; rfl
    case stays => rw [ArrSt.dispatch_stays hrun hfirst]; exact hrun

end Sys2Proof.Machine
end

section
/-! PROOFS. Registers whose write has an effect (R165, R216, R289, R345 to R347, R375, R382, R389, R398). -/

namespace Sys2Proof.Machine

/-! ### A write that is served -/

/-- A register of an instance page whose write is taken whole by its effect: no INT_ENABLE, LOCK or guard register, and neither of the two that
look at the value written before their page masks it (R297, R303, R359). -/
def plainReg (page off : Nat) : Bool :=
  instPage page && decide (off < 0x1000) && decide (off % 4 = 0) && !([0x010, 0x01C, 0x020, 0x024, 0x028].contains off) &&
    !(page == 0x1C && off == 0x018) && !(page == 0x1F && off == 0x120)

section Write

variable {init : Initiator} {k : InstId} {page off : Nat} {w : Word} {s : State}

/-- A taken write of such a register serves what the effect of its masked value makes of the `Inst` as it is seen. -/
theorem regWrite_serve {g : Inst → Inst × BusRes} (hplain : plainReg page off = true) (htaken : s.takes init k page off w)
    (heffect : (s.seen k).writeEffect init (s.die.ctxSel init) page off (masked page off w) = g (s.seen k)) :
    regWrite init page off w s = .next (s.serve k true g) := by
  simp only [plainReg, Bool.and_eq_true, Bool.not_eq_true', decide_eq_true_eq, List.contains_eq_mem, decide_eq_false_iff_not, List.mem_cons,
    List.not_mem_nil, or_false, not_or, Bool.and_eq_false_iff, beq_eq_false_iff_ne] at hplain
  obtain ⟨⟨⟨⟨⟨hpage, hsmall⟩, haligned⟩, hheader⟩, hecc⟩, hmbox⟩ := hplain
  have hrange : 0x10 ≤ page := by
    simp only [instPage, Bool.and_eq_true, decide_eq_true_eq] at hpage
    exact hpage.1
  rw [regWrite_inst htaken hpage (decide_eq_false (by omega)) (by simp only [regKey]; omega) (by simp only [regKey]; omega)
    (by simp only [regKey]; omega) hheader (by omega)]
  refine congrArg _ (State.serve_congr ?_)
  rw [if_neg (by omega)]
  exact heffect

/-- Such a write whose effect, making `j`, ends the access at once (R296). -/
theorem regWrite_done {j : Inst} {f : Inst → Inst} (hplain : plainReg page off = true) (htaken : s.takes init k page off w)
    (heffect : (s.seen k).writeEffect init (s.die.ctxSel init) page off (masked page off w) = (j, .done)) (hj : j = f (s.seen k)) :
    regWrite init page off w s = .next (s.serve k true (fun i => (f i, .done))) :=
  regWrite_serve hplain htaken (heffect.trans (congrArg (·, BusRes.done) hj))

/-- A preset that no increment coincides with is the write of its register (R345). -/
theorem execCntPresetHi_alone : execCntPresetHi init w false s = regWrite init 0x20 0x110 w s := rfl

/-- JOB_GO is the write of its register once its initiator's bytes are placed at the instance it addresses (R216; log entry 143). -/
theorem execJobGo_placed (ps : List (Nat × Bytes)) (hon : s.supply = .on) (htarget : s.die.target init = k) :
    execJobGo init ⟨w, ps⟩ s = regWrite init 0x1A 0x110 w (s.placed init k ps) := by
  subst htarget
  rw [execJobGo, regWrite, runDie_on hon, runDie_on (s := s.placed init _ ps) hon]
  rfl

end Write

/-! ### What a write makes of an `Inst` -/

section Effects

variable {i : Inst} {b x : Nat} {w : Word}

/-- A preset of a listed counter (R345). -/
theorem Inst.presetCounter_listed (h : counterListed (bits (i.ctl.stored b 0x20 0x100).toNat 7 0) = true) :
    i.presetCounter b w = { i with telem := { i.telem with cnt := { i.telem.cnt with
      live := i.telem.cnt.live.put (bits (i.ctl.stored b 0x20 0x100).toNat 7 0)
        ((i.ctl.stored b 0x20 0x10C).toNat + 2 ^ 32 * bits w.toNat 23 0) } } } :=
  if_pos h

/-- A preset of a counter that is not listed changes nothing (R345). -/
theorem Inst.presetCounter_unlisted (h : counterListed (bits (i.ctl.stored b 0x20 0x100).toNat 7 0) = false) : i.presetCounter b w = i :=
  if_neg (ne_true_of_eq_false h)

/-- STEP_TAIL moves within what the ring holds (R398). -/
theorem Inst.setStepTail_within (hring : w.toNat % 2 ^ 28 < i.telem.stepSize * 4096)
    (hread : (w.toNat % 2 ^ 28 + i.telem.stepSize * 4096 - i.telem.stepTail) % (i.telem.stepSize * 4096) ≤
      (i.telem.stepHead + i.telem.stepSize * 4096 - i.telem.stepTail) % (i.telem.stepSize * 4096)) :
    i.setStepTail b w = { i with telem := { i.telem with stepTail := w.toNat % 2 ^ 28 } } :=
  if_pos ⟨hring, hread⟩

/-- A STEP_TAIL outside the ring is logged alone (R398). -/
theorem Inst.setStepTail_outside (hring : i.telem.stepSize * 4096 ≤ w.toNat % 2 ^ 28) :
    i.setStepTail b w = i.eventBy 0xFF03 0x20 none b [(20, 4, w.toNat)] :=
  if_neg fun ⟨hin, _⟩ => absurd hin (Nat.not_lt.mpr hring)

/-- SIZES is applied where LEDGER and BACKLOG fit the region, every context is FREE and no staging slot is in use (R382). -/
theorem Inst.setSizes_applied {v : Nat} (hv : w.toNat &&& 0x1F1F1F = v) (hmin : 1 ≤ bits v 4 0) (hmax : bits v 4 0 ≤ 16)
    (hledger : 1 ≤ bits v 12 8) (hbacklog : 1 ≤ bits v 20 16) (hsum : bits v 12 8 + bits v 20 16 ≤ bits v 4 0)
    (hidle : i.ctxs.any (fun c => decide (c.2.map.state ≠ 0) || decide (c.2.map.slot ≠ 0)) = false) :
    i.setSizes b w = Inst.judgeReserve { i with ctl := i.ctl.store b 0x18 0x100 (w32 v) } := by
  subst hv
  have hfit : ¬ (bits (w.toNat &&& 0x1F1F1F) 4 0 < 1 ∨ 16 < bits (w.toNat &&& 0x1F1F1F) 4 0 ∨ bits (w.toNat &&& 0x1F1F1F) 12 8 < 1 ∨
      bits (w.toNat &&& 0x1F1F1F) 20 16 < 1 ∨
      bits (w.toNat &&& 0x1F1F1F) 4 0 < bits (w.toNat &&& 0x1F1F1F) 12 8 + bits (w.toNat &&& 0x1F1F1F) 20 16) := by
    omega
  exact (if_neg hfit).trans (if_neg (ne_true_of_eq_false hidle))

/-- COLD_PRIV cleared: the context is no longer cold-privileged (R289). -/
theorem Inst.setColdPriv_clear (h : w.toNat % 2 = 0) :
    i.setColdPriv b x w = { i with view := { i.view with coldPriv := i.view.coldPriv.filter (· ≠ x) } } :=
  if_pos h

section Setting

variable (hset : w.toNat % 2 = 1) (hnew : i.view.coldPriv.contains x = false)
include hset hnew

/-- COLD_PRIV set for one context more, of at most four (R289). -/
theorem Inst.setColdPriv_set (hroom : i.view.coldPriv.length < 4) :
    i.setColdPriv b x w = { i with view := { i.view with coldPriv := insertNat x i.view.coldPriv } } := by
  simp only [Inst.setColdPriv, hset, hnew, if_neg (Nat.not_le.mpr hroom), Nat.one_ne_zero, Bool.false_eq_true, if_false]

/-- The fifth context is refused and logged (R289). -/
theorem Inst.setColdPriv_full (hfull : 4 ≤ i.view.coldPriv.length) : i.setColdPriv b x w = i.eventBy 0x1203 0x12 (some x) b [] := by
  simp only [Inst.setColdPriv, hset, hnew, if_pos hfull, Nat.one_ne_zero, Bool.false_eq_true, if_false]

end Setting

/-- A job that passes its checks is queued for the array (R216, R389). -/
theorem Inst.jobGo_queued (hfree : ((i.arr.jobs.find b).getD (i.jobWanted b)).work = 0) (hpass : i.jobReason b (i.jobWanted b) = 0) :
    i.jobGo b = i.setJob b { i.jobWanted b with state := 1, work := 1 } := by
  simp [Inst.jobGo, hfree, hpass]

/-- A job that does not pass is refused with its reason (R389; log entry 119). -/
theorem Inst.jobGo_refused (hfree : ((i.arr.jobs.find b).getD (i.jobWanted b)).work = 0) (hfail : i.jobReason b (i.jobWanted b) ≠ 0) :
    i.jobGo b =
      (let j : ArrJob := { i.jobWanted b with state := 4, reason := i.jobReason b (i.jobWanted b) }
       (i.setJob b j).jobEvent b j) := by
  simp [Inst.jobGo, hfree, hfail]

/-- A job while one is under way is refused with reason 7 BUSY (R389). -/
theorem Inst.jobGo_busy {old : ArrJob} (hold : (i.arr.jobs.find b).getD (i.jobWanted b) = old) (hbusy : old.work ≠ 0) :
    i.jobGo b =
      (let j : ArrJob := { old with state := 4, reason := 7 }
       (i.setJob b j).jobEvent b j) := by
  subst hold
  exact if_pos hbusy

end Effects

/-- Settles O40: each write by what the effect of its register makes of the `Inst` as it is seen (log entries 49, 119, 124 and 143). -/
theorem registerEffects : Obligations.RegisterEffects := by
  intro init k w s i b x
  refine ⟨(regWrite_serve rfl · rfl), (regWrite_serve rfl · rfl), fun h => ?preset, (regWrite_serve rfl · rfl), fun h => ?tail, fun h => ?sizes,
    (regWrite_serve rfl · rfl), (regWrite_serve rfl · rfl), fun h => ?cold, ?job⟩
  case preset =>
    rw [show exec (.cntPresetHi init w false) s = _ from execCntPresetHi_alone]
    exact ⟨fun hlisted => regWrite_done rfl h rfl (Inst.presetCounter_listed hlisted),
      fun hother => regWrite_done rfl h rfl (Inst.presetCounter_unlisted hother)⟩
  case tail =>
    exact ⟨fun hring hread => regWrite_done rfl h rfl (Inst.setStepTail_within hring hread),
      fun hring => regWrite_done rfl h rfl (Inst.setStepTail_outside hring)⟩
  case sizes =>
    intro v hmin hmax hledger hbacklog hsum hidle
    exact regWrite_done rfl h rfl (Inst.setSizes_applied rfl hmin hmax hledger hbacklog hsum hidle)
  case cold =>
    exact ⟨fun hclear => regWrite_done rfl h rfl (Inst.setColdPriv_clear hclear),
      fun hset hnew hroom => regWrite_done rfl h rfl (Inst.setColdPriv_set hset hnew hroom),
      fun hset hnew hfull => regWrite_done rfl h rfl (Inst.setColdPriv_full hset hnew hfull)⟩
  case job =>
    intro ps p n old h
    have hbus : p.busTo init k := h.1
    obtain ⟨hon, -, htarget, -⟩ := hbus
    rw [show exec (.jobGo init ⟨w, ps⟩) s = _ from execJobGo_placed ps hon htarget]
    exact ⟨fun hfree hpass => regWrite_done rfl h rfl (Inst.jobGo_queued hfree hpass),
      fun hfree hfail => regWrite_done rfl h rfl (Inst.jobGo_refused hfree hfail),
      fun hbusy => regWrite_done rfl h rfl (Inst.jobGo_busy rfl hbusy)⟩

end Sys2Proof.Machine
end

section
/-! PROOFS. User scalars: whether the step they are for has taken effect, and what USCALAR_ARM makes of a set (R183, R374). -/

namespace Sys2Proof.Machine

section Scalars

variable {i : Inst} {b x n : Nat}

/-- A set has taken effect exactly where an update of its step or a later one has started (R183; log entry 54). -/
theorem Inst.scalarsUsed_iff : i.scalarsUsed x n = true ↔ ∃ m, (i.ctx x).run.started = some m ∧ n ≤ m := by
  cases hstarted : (i.ctx x).run.started with
  | none => simp [Inst.scalarsUsed, hstarted]
  | some m => simp [Inst.scalarsUsed, hstarted]

/-- Before the first update, and while every started one is of an earlier step, a set has not taken effect (R183). -/
theorem Inst.scalarsUsed_early (h : (i.ctx x).run.started = none ∨ ∃ m, (i.ctx x).run.started = some m ∧ m < n) :
    i.scalarsUsed x n = false := by
  rw [Bool.eq_false_iff, Ne, Inst.scalarsUsed_iff]
  rintro ⟨m, hstarted, hused⟩
  obtain hnone | ⟨m', hm', hearlier⟩ := h
  · simp [hnone] at hstarted
  · obtain rfl : m' = m := Option.some.inj (hm'.symm.trans hstarted)
    exact absurd hused (Nat.not_le.mpr hearlier)

/-- A set that comes before its step replaces the armed sets not yet in use, and the layers that waited for it go on (R183, R374). -/
theorem Inst.armScalars_early (hunused : i.scalarsUsed x (i.ctx x).user.pendStep = false) :
    i.armScalars b x =
      (let u := (i.ctx x).user
       let j := i.modUser x (fun u => { u with
         armed := u.armed.filter (fun a => i.scalarsUsed x a.1) ++ [(u.pendStep, u.pending)], late := false })
       let k : Inst := { j with opt := { j.opt with waits := j.opt.waits.filter (fun w => w ≠ (x, 2, 0)) } }
       (k.eventBy 0x1201 0x12 (some x) b [(24, 4, u.pendStep % 2 ^ 32)]).pump) :=
  if_neg (ne_true_of_eq_false hunused)

/-- A set that comes once its step has taken effect sets the late bit and raises the event alone (R374). -/
theorem Inst.armScalars_late (hused : i.scalarsUsed x (i.ctx x).user.pendStep = true) :
    i.armScalars b x =
      (i.modUser x (fun u => { u with late := true })).eventBy 0x1202 0x12 (some x) b [(24, 4, (i.ctx x).user.pendStep % 2 ^ 32)] :=
  if_pos hused

end Scalars

/-- Settles O37: the write of USCALAR_ARM by what it makes of the `Inst` as it is seen, where the step of the set has not taken effect and
where it has (log entry 54). -/
theorem scalarsArm : Obligations.ScalarsArm := by
  intro init k w s htaken i x u
  refine ⟨fun hunused => ?early, fun n hstarted hreached => ?late, Inst.scalarsUsed_early⟩
  case early => exact regWrite_done rfl htaken rfl (Inst.armScalars_early hunused)
  case late =>
    have hused : i.scalarsUsed x u.pendStep = true := Inst.scalarsUsed_iff.mpr ⟨n, hstarted, hreached⟩
    exact regWrite_done rfl htaken rfl (Inst.armScalars_late hused)

end Sys2Proof.Machine
end

section
/-! PROOFS. The return from OFF (R181, R217, R329, R333, R338, R342): asked for, powered, image, state, self-test, and the timeout. -/

namespace Sys2Proof.Machine

/-! ### The request -/

section Request

variable {i : Inst}

/-- Only an `Inst` in OFF or on its way there has a return to ask for (R329, R342). -/
theorem Inst.returnRequest_ignored (hoff : i.pw.state ≠ .off) (hgoing : i.pw.state ≠ .goingOff) : i.returnRequest = i := by
  unfold Inst.returnRequest
  split
  · contradiction
  · contradiction
  · rfl

/-- In OFF the return begins with its power-up (R329). -/
theorem Inst.returnRequest_off (hoff : i.pw.state = .off) :
    i.returnRequest =
      { i.accountTime with pw := { i.accountTime.pw with state := .restoring, offPhase := .power, returnDue := false } } := by
  simp only [Inst.returnRequest, hoff]
  rfl

/-- On the way to OFF the request waits for its end (R342). -/
theorem Inst.returnRequest_goingOff (hgoing : i.pw.state = .goingOff) :
    i.returnRequest = { i with pw := { i.pw with returnDue := true } } := by
  simp only [Inst.returnRequest, hgoing]

end Request

/-! ### Power and image -/

/-- The end of the power-up of a running die makes any change that agrees with its own, under the die's PLL, on the `Inst` as it is seen. -/
theorem exec_returnPowerUpDone {k : InstId} {s : State} {g : Inst → Inst} (hs : s.supply = .on)
    (h : (s.seen k).returnPower s.die.pll = g (s.seen k)) : exec (.returnPowerUpDone k) s = .next (s.change k g) := by
  change runDie (fun d v => onInst k (Inst.returnPower d.pll) d v) s = _
  rw [runDie_on hs]
  simp only [State.change, ← h]
  rfl

section Image

variable {i : Inst} {pll : Bool}

/-- With the PLL locked the pool is threaded, RESTORED starts the event ring, and the image is awaited (R318, R329). -/
theorem Inst.returnPower_locked (hstate : i.pw.state = .restoring) (hphase : i.pw.offPhase = .power) (hpll : pll = true) :
    i.returnPower pll = Inst.event 0x1002 none [] { i with pw := { i.pw with offPhase := .image }, pool := i.pool.thread } :=
  if_pos ⟨hstate, hphase, hpll⟩

/-- Without the lock, and in any other phase, no power-up ends (R329). -/
theorem Inst.returnPower_ignored (h : i.pw.state ≠ .restoring ∨ i.pw.offPhase ≠ .power ∨ pll = false) : i.returnPower pll = i := by
  refine if_neg ?_
  rintro ⟨hstate, hphase, hpll⟩
  obtain h | h | h := h
  · exact h hstate
  · exact h hphase
  · exact ne_true_of_eq_false h hpll

variable {f : FlashView} {m q p : Bytes} (hstate : i.pw.state = .restoring) (hphase : i.pw.offPhase = .image)
include hstate hphase

/-- An image that is delivered to a return is loaded for it, whatever flash holds (R329). -/
theorem Inst.imageDelivery_returning : i.imageDelivery f m q p = i.loadReturn m q p := by
  simp only [Inst.imageDelivery, hstate, if_pos hphase]

/-- An image that meets its checks lets the return go on to the state (R181, R329, R338). -/
theorem Inst.imageDelivery_return_taken (htaken : (i.offerPrograms (packageOk m q p) p).2 = true) :
    i.imageDelivery f m q p =
      (let j := (i.offerPrograms (packageOk m q p) p).1
       { j with boot := { j.boot with replaced := false }, pw := { j.pw with offPhase := .state } }) := by
  rw [Inst.imageDelivery_returning hstate hphase]
  exact if_neg (by simp [htaken])

/-- An image that fails them ends the return by a fault (R329, R333, R338). -/
theorem Inst.imageDelivery_return_refused (hrefused : (i.offerPrograms (packageOk m q p) p).2 = false) :
    i.imageDelivery f m q p = (i.offerPrograms (packageOk m q p) p).1.selfFault 0x17 0 := by
  rw [Inst.imageDelivery_returning hstate hphase]
  exact if_pos (by simp [hrefused])

end Image

/-! ### The state read back -/

/-- What the last save kept, held as data beside the stack; nothing where there was none (R328; log entry 26). -/
def Inst.savedState (i : Inst) : Saved := i.saved.getD { ctxs := [], params := [], regs := [] }

/-- The areas a return reads back: the save area of the `Inst`, that of each live context, and the committed copies of
their maps (R329; log entry 38). -/
def Saved.areas (p : Saved) : List (Nat × Nat) :=
  let live := (p.ctxs.filter (fun c => c.2.live)).map Prod.fst
  (saveArea 0 :: live.map saveArea) ++ live.map (fun x => (mapCopySlot x * 4096, 4194304))

/-- An `Inst` that has read the spilled valid map and then these areas back, and whether all of them could be read (R240, R329). -/
def Inst.readBack (i : Inst) : Inst × Bool :=
  i.savedState.areas.foldl (fun (a : Inst × Bool) (p : Nat × Nat) => let r := a.1.readSpan false p.1 p.2; (r.1, a.2 && r.2))
    ((i.readSpill (i.mem.spill.getD [])).1, true)

/-- That `Inst` with the saved state installed: contexts, parameter blocks, register settings and the valid map, the scrubber's timers
going on, and the self-test awaited (R217, R249, R329). -/
def Inst.restored (i : Inst) : Inst :=
  let k := i.readBack.1
  let p := i.savedState
  { k with ctxs := p.ctxs, scrub := k.scrub.halt k.view.time, opt := { k.opt with params := p.params }, ctl := { k.ctl with regs := p.regs },
           saved := none, mem := { k.mem with valid := (i.readSpill (i.mem.spill.getD [])).2, spill := none },
           pw := { k.pw with offPhase := .selfTest } }

section Restore

variable {i : Inst} (us : List Upset)

/-- Outside its phase of a return the command only brings its upsets (log entry 12). -/
theorem Inst.returnState_ignored (h : (i.upsets us).pw.state ≠ .restoring ∨ (i.upsets us).pw.offPhase ≠ .state) :
    i.returnState us = i.upsets us :=
  if_pos h

variable (hstate : (i.upsets us).pw.state = .restoring) (hphase : (i.upsets us).pw.offPhase = .state)
include hstate hphase

/-- A return that awaits its state reads it back after the upsets, and goes by whether that could be read (R240, R329). -/
theorem Inst.returnState_awaited :
    i.returnState us =
      if !(i.upsets us).readBack.2 then (i.upsets us).readBack.1.selfFault 0x10 Slot.mapRegion else (i.upsets us).restored :=
  if_neg fun hother => hother.elim (fun hne => hne hstate) (fun hne => hne hphase)

/-- A state that reads back is installed (R329). -/
theorem Inst.returnState_reads (hread : (i.upsets us).readBack.2 = true) : i.returnState us = (i.upsets us).restored := by
  rw [Inst.returnState_awaited us hstate hphase]
  exact if_neg (by simp [hread])

/-- A state with a line that cannot be read ends the return by a fault (R240, R329). -/
theorem Inst.returnState_unreadable (hbad : (i.upsets us).readBack.2 = false) :
    i.returnState us = (i.upsets us).readBack.1.selfFault 0x10 Slot.mapRegion := by
  rw [Inst.returnState_awaited us hstate hphase]
  exact if_pos (by simp [hbad])

end Restore

/-! ### Self-test and timeout -/

section ReturnTest

variable {i : Inst} {nominal : TestRun} (steps : List TestRun) (hstate : i.pw.state = .restoring) (hphase : i.pw.offPhase = .selfTest)
include hstate hphase

theorem Inst.testTrigger_returning : i.testTrigger = 1 := by
  simp [Inst.testTrigger, hstate, hphase]

/-- The self-test of a return that passes opens the `Inst` (R217, R329). -/
theorem Inst.selfTestDone_returning_passes (hfree : i.arrHolds .selfTest = false) (hpass : testPasses nominal = true) :
    i.selfTestDone nominal steps = (Inst.event 0x1A02 none [(20, 1, 1), (21, 1, 0), (22, 1, 1)]
      { i with arr := { i.arr with lastTest := 1 + 2 + 2 ^ 4 * i.arr.steps + 2 ^ 8 } }).openReturn := by
  simp [Inst.selfTestDone, Inst.testTrigger_returning hstate hphase, hfree, hpass, b2n, hstate]

/-- The self-test of a return that fails ends it by a fault (R217, R333). -/
theorem Inst.selfTestDone_returning_fails (hfree : i.arrHolds .selfTest = false) (hfail : testPasses nominal = false) :
    i.selfTestDone nominal steps = (Inst.event 0x1A02 none [(20, 1, 0), (21, 1, 0), (22, 1, 1)]
      { i with arr := { i.arr with lastTest := 2 + 2 ^ 4 * i.arr.steps + 2 ^ 8 } }).selfFault 0x18 0 := by
  simp [Inst.selfTestDone, Inst.testTrigger_returning hstate hphase, hfree, hfail, b2n]

end ReturnTest

/-- A fault an `Inst` that is not FAULTED finds in itself is its cause (R333). -/
theorem Inst.selfFault_cause {i : Inst} (c d : Nat) (h : i.pw.state ≠ .faulted) : (i.selfFault c d).pw.selfCause = c := by
  obtain ⟨v, r, t, o, hfault⟩ := i.selfFault_frame c d h
  rw [hfault]

/-- Settles O25: each command by the phase of the return the `Inst` is seen in (log entries 12, 26, 38, 142 and 144). -/
theorem offReturn : Obligations.OffReturn := by
  intro s k hs i
  refine ⟨?off, ?goingOff, ?noReturn, ?powered, ?unpowered, ?image, ?selfTest, ?stray, ?restored, ?timeout, ?noTimeout⟩
  case off =>
    intro hoff
    exact runInst_change hs (Inst.returnRequest_off hoff)
  case goingOff =>
    intro hgoing
    exact runInst_change hs (Inst.returnRequest_goingOff hgoing)
  case noReturn =>
    intro hoff hgoing
    exact runInst_change hs (Inst.returnRequest_ignored hoff hgoing)
  case powered =>
    intro hstate hphase hpll
    exact exec_returnPowerUpDone hs (Inst.returnPower_locked hstate hphase hpll)
  case unpowered =>
    intro h
    exact exec_returnPowerUpDone hs (Inst.returnPower_ignored h)
  case image =>
    intro f m q p hstate hphase
    exact ⟨fun htaken => runInst_change hs (Inst.imageDelivery_return_taken hstate hphase htaken),
      fun hrefused => runInst_change hs (Inst.imageDelivery_return_refused hstate hphase hrefused)⟩
  case selfTest =>
    intro nominal steps hstate hphase hfree
    exact ⟨fun hpass => runInst_change hs (Inst.selfTestDone_returning_passes steps hstate hphase hfree hpass),
      fun hfail => runInst_change hs (Inst.selfTestDone_returning_fails steps hstate hphase hfree hfail)⟩
  case stray =>
    intro us h
    exact runInst_change hs (Inst.returnState_ignored us h)
  case restored =>
    intro us hstate hphase
    exact ⟨fun hread => runInst_change hs (Inst.returnState_reads us hstate hphase hread),
      fun hbad => runInst_change hs (Inst.returnState_unreadable us hstate hphase hbad)⟩
  case timeout =>
    intro hstate
    have hlive : i.pw.state ≠ .faulted := by simp [hstate]
    refine ⟨runInst_change hs (if_pos hstate), ?_, ?_⟩
    · rw [State.change_at]; exact (Inst.selfFault_faulted 0x16 0).1
    · rw [State.change_at]; exact Inst.selfFault_cause 0x16 0 hlive
  case noTimeout =>
    intro hstate
    exact runInst_change hs (if_neg hstate)

end Sys2Proof.Machine
end

section
/-! PROOFS. EMIT and re-emission (R229 to R233, R235, R326): the record sent next, the queue of re-emit requests and the ranges of the one at
its head. -/

namespace Sys2Proof.Machine

/-! ### Serving re-emit requests -/

section Reemission

variable {i j : Inst} {r : ReemitReq}

/-- The ranges of a request have been gone through: it leaves the queue (R231). -/
theorem Inst.reemitRanges_zero (q : Nat) :
    i.reemitRanges r q 0 = { i with emit := { i.emit with reemit := i.emit.reemit.drop 1 } } := rfl

/-- A range that is answered sends its record, and the next range follows (R231). -/
theorem Inst.reemitRanges_answer {q : Nat} {b : Bytes} (n : Nat) (hanswer : i.answerRange r q = .answer j b) :
    i.reemitRanges r q (n + 1) = (j.putRecord b).reemitRanges r (q + 1) n := by
  simp only [Inst.reemitRanges, hanswer]

/-- A range that must wait leaves the request, from that range on, at the head (R230, R231). -/
theorem Inst.reemitRanges_waits {q : Nat} (n : Nat) (hwaits : i.answerRange r q = .waits j) :
    i.reemitRanges r q (n + 1) =
      { j with emit := { j.emit with reemit := { r with firstRange := q, rangeCount := n + 1 } :: j.emit.reemit.drop 1 } } := by
  simp only [Inst.reemitRanges, hwaits]

/-- Nothing is re-emitted by an `Inst` that does not run, while EMIT is withheld, or where no request waits (R230, R231). -/
theorem Inst.reemitServe_idle (h : i.running = false ∨ i.emit.stopped = true ∨ i.emit.reemit = []) : i.reemitServe = i := by
  rw [Inst.reemitServe]
  rcases h with hstands | hwithheld | hnone
  · exact if_pos (by simp [hstands])
  · exact if_pos (by simp [hwithheld])
  · split
    · rfl
    · rw [hnone]

section Head

variable {rest : List ReemitReq} (hrun : i.running = true) (hgranted : i.emit.stopped = false) (hhead : i.emit.reemit = r :: rest)
include hrun hgranted hhead

/-- The request at the head is served from its first range (R231). -/
theorem Inst.reemitServe_head : i.reemitServe = (i.reemitRanges r r.firstRange r.rangeCount).pump := by
  simp [Inst.reemitServe, hrun, hgranted, hhead]

/-- The answer to a request's only range ends it (R231). -/
theorem Inst.reemitServe_last {b : Bytes} (hone : r.rangeCount = 1) (hanswer : i.answerRange r r.firstRange = .answer j b) :
    i.reemitServe =
      Inst.pump { j.putRecord b with emit := { (j.putRecord b).emit with reemit := (j.putRecord b).emit.reemit.drop 1 } } := by
  rw [Inst.reemitServe_head hrun hgranted hhead, hone, Inst.reemitRanges_answer 0 hanswer, Inst.reemitRanges_zero]

/-- The answer to the first of several ranges takes the request on to the next (R231). -/
theorem Inst.reemitServe_next {b : Bytes} (hmore : 1 < r.rangeCount) (hanswer : i.answerRange r r.firstRange = .answer j b) :
    i.reemitServe = ((j.putRecord b).reemitRanges r (r.firstRange + 1) (r.rangeCount - 1)).pump := by
  have hcount : r.rangeCount = r.rangeCount - 1 + 1 := by omega
  rw [Inst.reemitServe_head hrun hgranted hhead, hcount, Inst.reemitRanges_answer _ hanswer, Nat.add_sub_cancel]

/-- A request whose first range must wait stands at the head as it is (R230). -/
theorem Inst.reemitServe_waits (hsome : 1 ≤ r.rangeCount) (hwaits : i.answerRange r r.firstRange = .waits j) :
    i.reemitServe = Inst.pump { j with emit := { j.emit with reemit := r :: j.emit.reemit.drop 1 } } := by
  have hcount : r.rangeCount - 1 + 1 = r.rangeCount := by omega
  rw [Inst.reemitServe_head hrun hgranted hhead, ← hcount, Inst.reemitRanges_waits _ hwaits, hcount]

end Head

end Reemission

/-! ### Queueing re-emit requests -/

section Requests

variable {i : Inst} {r : ReemitReq}

/-- A wake request in DOZE or NAP starts a wake, unless a state is being entered (R325). -/
theorem Inst.wakeUp_resting (hsleep : i.pw.state = .doze ∨ i.pw.state = .nap) (hrest : i.pw.entering = none) :
    i.wakeUp = { i with pw := { i.pw with waking := true, request := none } } := by
  obtain h | h := hsleep <;> simp [Inst.wakeUp, h, hrest]

/-- A wake request during an entry is kept until the entry has ended (R325). -/
theorem Inst.wakeUp_entering (hsleep : i.pw.state = .doze ∨ i.pw.state = .nap) (hentering : i.pw.entering ≠ none) :
    i.wakeUp = { i with pw := { i.pw with wakeAfter := true } } := by
  obtain h | h := hsleep <;> simp [Inst.wakeUp, h, Option.isSome_iff_ne_none, hentering]

/-- The request waits behind the others (R230). -/
def Inst.reemitQueued (r : ReemitReq) (i : Inst) : Inst := { i with emit := { i.emit with reemit := i.emit.reemit ++ [r] } }

/-- The request queued, REEMIT_FULL logged where it is the sixty-fourth (R230). -/
def Inst.reemitFilled (r : ReemitReq) (i : Inst) : Inst :=
  if i.emit.reemit.length = 63 then (i.reemitQueued r).event 0x1B01 none [] else i.reemitQueued r

@[simp] theorem Inst.reemitFilled_pw : (i.reemitFilled r).pw = i.pw := by
  unfold Inst.reemitFilled
  split
  · exact Inst.event_pw 0x1B01 none [] (i.reemitQueued r)
  · rfl

/-- A request that the full queue has no place for stays outside (R230; log entry 65). -/
theorem Inst.reemitRequest_full (hfull : 64 ≤ i.emit.reemit.length) : i.reemitRequest r = i :=
  if_pos hfull

/-- A request that finds a place is queued, and wakes an `Inst` that sleeps (R230, R326). -/
theorem Inst.reemitRequest_room (hroom : i.emit.reemit.length < 64) :
    i.reemitRequest r = if i.pw.state = .doze ∨ i.pw.state = .nap then (i.reemitFilled r).wakeUp else i.reemitFilled r := by
  have hlast : 64 ≤ (i.reemitQueued r).emit.reemit.length ↔ i.emit.reemit.length = 63 := by
    rw [Inst.reemitQueued, List.length_append, List.length_singleton]
    omega
  have hfilled : (if 64 ≤ (i.reemitQueued r).emit.reemit.length then (i.reemitQueued r).event 0x1B01 none [] else i.reemitQueued r) =
      i.reemitFilled r := by
    simp only [hlast, Inst.reemitFilled]
  rw [← Inst.reemitFilled_pw (i := i) (r := r), ← hfilled]
  exact if_neg (Nat.not_le.mpr hroom)

theorem Inst.reemitRequest_awake (hroom : i.emit.reemit.length < 64) (hdoze : i.pw.state ≠ .doze) (hnap : i.pw.state ≠ .nap) :
    i.reemitRequest r = i.reemitFilled r := by
  rw [Inst.reemitRequest_room hroom, if_neg (not_or.mpr ⟨hdoze, hnap⟩)]

section Asleep

variable (hroom : i.emit.reemit.length < 64) (hsleep : i.pw.state = .doze ∨ i.pw.state = .nap)
include hroom hsleep

theorem Inst.reemitRequest_resting (hrest : i.pw.entering = none) :
    i.reemitRequest r = { i.reemitFilled r with pw := { i.pw with waking := true, request := none } } := by
  rw [Inst.reemitRequest_room hroom, if_pos hsleep, Inst.wakeUp_resting (by simpa using hsleep) (by simpa using hrest), Inst.reemitFilled_pw]

theorem Inst.reemitRequest_entering (hentering : i.pw.entering ≠ none) :
    i.reemitRequest r = { i.reemitFilled r with pw := { i.pw with wakeAfter := true } } := by
  rw [Inst.reemitRequest_room hroom, if_pos hsleep, Inst.wakeUp_entering (by simpa using hsleep) (by simpa using hentering),
    Inst.reemitFilled_pw]

end Asleep

end Requests

/-- Settles O9: a request by the room left and the power state it meets, the head by what its first range is answered with (log entries 64
and 65). -/
theorem reemitQueue : Obligations.ReemitQueue := by
  intro s k hs i queued filled
  refine ⟨?queues, ?sixtyFourth, ?asleep, ?outside, ?serves, ?idle⟩
  case queues =>
    intro r hroom hdoze hnap
    have hqueued : i.reemitFilled r = i.reemitQueued r := if_neg (Nat.ne_of_lt hroom)
    exact runInst_change hs ((Inst.reemitRequest_awake (Nat.lt_succ_of_lt hroom) hdoze hnap).trans hqueued)
  case sixtyFourth =>
    intro r hlast hdoze hnap
    have hlogged : i.reemitFilled r = (i.reemitQueued r).event 0x1B01 none [] := if_pos hlast
    exact runInst_change hs ((Inst.reemitRequest_awake (by omega) hdoze hnap).trans hlogged)
  case asleep =>
    intro r hroom hsleep
    exact ⟨fun hrest => runInst_change hs (Inst.reemitRequest_resting hroom hsleep hrest),
      fun hentering => runInst_change hs (Inst.reemitRequest_entering hroom hsleep hentering)⟩
  case outside =>
    intro r hfull
    exact runInst_change hs (Inst.reemitRequest_full hfull)
  case serves =>
    intro r rest hrun hgranted hhead
    exact ⟨runInst_change hs (Inst.reemitServe_head hrun hgranted hhead),
      fun j b hone hanswer => runInst_change hs (Inst.reemitServe_last hrun hgranted hhead hone hanswer),
      fun j b hmore hanswer => runInst_change hs (Inst.reemitServe_next hrun hgranted hhead hmore hanswer),
      fun j hsome hwaits => runInst_change hs (Inst.reemitServe_waits hrun hgranted hhead hsome hwaits)⟩
  case idle =>
    intro h
    exact runInst_change hs (Inst.reemitServe_idle h)

/-! ### The record sent next -/

section Send

variable {i : Inst}

/-- A record of this home sent on EMIT: it leaves the waiting ones, is counted, and its range counts as emitted (R229, R233). -/
def Inst.freshSent (b : Built) (i : Inst) : Inst :=
  let j : Inst := { i with emit := { i.emit with waiting := i.emit.waiting.filter (fun o => o ≠ b) } }
  let n := (emitCounters.zip (1 :: b.counts)).foldl (fun i c => i.count c.1 c.2)
    (((j.putRecord b.bytes).emitTally b).modWork b.ctx b.q b.step (fun w => { w with emitted := true }))
  { n with opt := { n.opt with work := n.opt.work.filter (fun w => !(w.emitted && w.retired)) } }

/-- The first record that may go is sent (R229). -/
theorem Inst.freshSend_home {b : Built} (hfirst : i.emit.waiting.find? (fun b => i.sendable b) = some b) (hhome : b.standin = none) :
    i.freshSend = i.freshSent b := by
  simp only [Inst.freshSend, hfirst, hhome, Inst.freshSent]

/-- Re-emission goes before fresh records (R232). -/
theorem Inst.emitSend_granted (hrun : i.running = true) (hgranted : i.emit.stopped = false) : i.emitSend = i.reemitServe.freshSend := by
  simp [Inst.emitSend, hrun, hgranted]

/-- While EMIT is withheld nothing goes (R235). -/
theorem Inst.emitSend_withheld (hwithheld : i.emit.stopped = true) : i.emitSend = i := by
  simp [Inst.emitSend, hwithheld]

end Send

/-- Settles O8: what is sent by whether a re-emit request waits and whether EMIT is withheld. -/
theorem emitSends : Obligations.EmitSends := by
  intro s k hs i
  refine ⟨?fresh, ?reemit, ?withheld, fun _ => runInst_on hs⟩
  case fresh =>
    intro b hrun hgranted hnone hfirst hhome
    have hsend : i.emitSend = i.freshSent b := by
      rw [Inst.emitSend_granted hrun hgranted, Inst.reemitServe_idle (.inr (.inr hnone)), Inst.freshSend_home hfirst hhome]
    exact runInst_change hs hsend
  case reemit =>
    intro r rest hrun hgranted hhead
    have hsend := (Inst.emitSend_granted hrun hgranted).trans (congrArg Inst.freshSend (Inst.reemitServe_head hrun hgranted hhead))
    exact runInst_change hs hsend
  case withheld =>
    intro hwithheld
    exact ⟨runInst_change hs (Inst.emitSend_withheld hwithheld), runInst_change hs (Inst.reemitServe_idle (.inr (.inl hwithheld)))⟩

end Sys2Proof.Machine
end

section
/-! PROOFS. Digests and the host commands that read the engine out (R234, R236, R252, R253, R310, R391). -/

namespace Sys2Proof.Machine

/-! ### CRC-64/ECMA-182 -/

theorem crcBit_eq (c : BitVec 64) : crcBit c = if c.getLsbD 63 then (c <<< 1) ^^^ crcPoly else c <<< 1 := by
  rw [crcBit, BitVec.msb_eq_getLsbD_last]

/-- A byte enters at the top of the register and is shifted through bit by bit. -/
theorem crcByte_eq_repeat (c : BitVec 64) (x : Byte) : crcByte c x = Nat.repeat crcBit 8 (c ^^^ (x.setWidth 64 <<< 56)) := rfl

theorem crc64_concat (b : Bytes) (x : Byte) : crc64 (b ++ [x]) = crcByte (crc64 b) x :=
  List.foldl_append

theorem crc64_zeros (n : Nat) : crc64 (List.replicate n 0) = 0 := by
  induction n with
  | zero => rfl
  | succ n ih =>
    rw [List.replicate_succ', crc64_concat, ih]
    decide

/-- Settles O59: the register takes its bytes one by one, zeros leave it 0, and the check value is computed. -/
theorem digestParameters : Obligations.DigestParameters := by
  unfold Obligations.DigestParameters
  intro shift
  have hshift : crcBit = shift := funext crcBit_eq
  refine ⟨rfl, fun b x => ?byte, by decide +kernel, crc64_zeros, fun rs => ?range⟩
  case byte => rw [crc64_concat, crcByte_eq_repeat, hshift]
  case range => rw [rangeDigest, List.flatMap_def]

/-! ### DIGEST_DUMP and COLONY_CHECK -/

section ReadOut

variable {i : Inst} {d : Descr}

/-- A DIGEST_DUMP writes the entries of the chunks served of a layer's class, one after another (R236; log entry 121). -/
theorem Inst.digestDump_started {m : MapImage} {l : LayerRec} {c : ClassRec} {j : Inst} {es : List (ChunkId × ChunkRec)}
    (hstart : i.startable 0x04 = some d) (himage : i.takeCmd.image d.ctx = some m)
    (hlayer : m.layer (bits (d.word 1) 30 0 + 2 ^ 31 * bits d.arg 3 3) = some l) (hcls : m.cls (bits d.arg 2 0) = some c)
    (hrecs : i.takeCmd.recsOf (i.takeCmd.servedChunks m d.ctx l c) = (j, es)) :
    i.digestDump = (Inst.finishCmd d 0 0 es.length
      { j with out := j.out ++ es.mapIdx (fun n e => OutEvent.hostWrite (d.a64 2 + 24 * n) (dumpEntry e)) }).pump := by
  simp only [Inst.digestDump, hstart, himage, hlayer, hcls, hrecs, Option.bind_some, Option.map_some]

/-- One row of a COLONY_CHECK: a local one against its digest, a global one rebuilt and compared (R252). -/
def Inst.colonyCheckRow (x : Nat) (i : Inst) (f : FragId) : Inst :=
  if f.role = 1 then i.colonyRow false x f else i.startRowRepair x f (List.range 64) true

/-- A COLONY_CHECK looks at its rows in turn, and runs until those that are rebuilt have been compared (R252). -/
theorem Inst.colonyCheck_started (hstart : i.startable 0x05 = some d) :
    i.colonyCheck = ((((i.checkRows d).foldl (Inst.colonyCheckRow d.ctx) i.takeCmd).runCmd
      { Running.fresh d with frags := i.checkRows d, items := (i.checkRows d).length }).settleChecks).pump := by
  simp only [Inst.colonyCheck, hstart]
  rfl

end ReadOut

/-! ### The ECC test -/

section EccTest

variable {i : Inst} {d : Descr}

/-- A slot as a test write finds it: a slot below the ledger region is opened first (R61; log entry 147). -/
def Inst.testFound (slot : Nat) (i : Inst) : Inst := if slot < i.ledgerBase then i.testOpen slot else i

theorem Inst.eccTestWrite_taken (b : Bytes) (hstart : i.startable 0x07 = some d) (htaken : i.takeCmd.testRefused d.testSlot = false) :
    i.eccTestWrite (.data b) = (Inst.count Cnt.eccTestAccesses 1 { i.takeCmd.testFound d.testSlot with
      mem := (i.takeCmd.testFound d.testSlot).mem.putRaw (64 * d.testSlot + d.testLine) (slice 0 68 b) }).finishCmd d 0 0 1 := by
  simp only [Inst.eccTestWrite, hstart, htaken, Bool.false_eq_true, if_false, Inst.testFound]

theorem Inst.eccTestWrite_refused (src : HostData) (hstart : i.startable 0x07 = some d)
    (hrefused : i.takeCmd.testRefused d.testSlot = true) : i.eccTestWrite src = i.takeCmd.refuseFree d := by
  simp only [Inst.eccTestWrite, hstart, hrefused, if_true]

theorem Inst.eccTestRead_taken {b : Bytes} (hstart : i.startable 0x08 = some d) (htaken : i.takeCmd.testRefused d.testSlot = false)
    (hline : i.takeCmd.mem.line (64 * d.testSlot + d.testLine) = b) :
    i.eccTestRead =
      ((i.takeCmd.emitOut (.hostWrite (d.a64 2) (b ++ testTail b ++ List.replicate 9 0))).count Cnt.eccTestAccesses 1).finishCmd d 0 0 1 := by
  simp only [Inst.eccTestRead, hstart, htaken, hline, Bool.false_eq_true, if_false]

theorem Inst.eccTestRead_refused (hstart : i.startable 0x08 = some d) (hrefused : i.takeCmd.testRefused d.testSlot = true) :
    i.eccTestRead = i.takeCmd.refuseFree d := by
  simp only [Inst.eccTestRead, hstart, hrefused, if_true]

end EccTest

/-- Settles O34: each command as it starts, the ECC test by whether its slot is refused (log entries 9, 121 and 147). -/
theorem hostChecks : Obligations.HostChecks := by
  intro s k d hs i
  refine ⟨?dump, ?check, ?write, ?read, fun src => ⟨?refusedWrite, ?refusedRead⟩⟩
  case dump =>
    intro m l c hstart himage hlayer hcls
    exact runInst_change hs (Inst.digestDump_started hstart himage hlayer hcls rfl)
  case check =>
    intro hstart
    exact runInst_change hs (Inst.colonyCheck_started hstart)
  case write =>
    intro b hstart htaken
    exact runInst_change hs (Inst.eccTestWrite_taken b hstart htaken)
  case read =>
    intro hstart htaken
    exact runInst_change hs (Inst.eccTestRead_taken hstart htaken rfl)
  case refusedWrite =>
    intro hstart hrefused
    exact runInst_change hs (Inst.eccTestWrite_refused src hstart hrefused)
  case refusedRead =>
    intro hstart hrefused
    exact runInst_change hs (Inst.eccTestRead_refused hstart hrefused)

end Sys2Proof.Machine
end

section
/-! PROOFS. The scrubber (R241, R248 to R250, R352): the start of a lap, its slots, its end and what announces it. -/

namespace Sys2Proof.Machine

/-! ### The start of a lap -/

section LapStart

variable {i : Inst}

/-- A lap starts at a ready `Inst` that is not off, where none is under way; the debt shortens its period, at most by half (R249, R352). -/
theorem Inst.lapStart_starts (hready : i.pw.ready = true) (hnone : i.scrub.running = false)
    (hstate : i.pw.state = .active ∨ i.pw.state = .goingOff ∨ i.pw.state = .doze ∨ i.pw.state = .nap) :
    i.lapStart =
      (let p := i.reg 0x1D 0x104 0x708 % 2 ^ 17
       { i with scrub := { i.scrub with running := true, began := true, phase := 1, slot := Slot.chunkTable, startT := i.view.time,
                                        periodS := max (p / 2) (p - i.scrub.debt) } }) := by
  have hstarts : ¬ (!i.pw.ready || i.scrub.running || !(i.running || i.pw.state == .doze || i.pw.state == .nap)) = true := by
    obtain h | h | h | h := hstate <;> simp [hready, hnone, h, Inst.running]
  exact if_neg hstarts

/-- A lap under way is not started again (R249). -/
theorem Inst.lapStart_underWay (hlap : i.scrub.running = true) : i.lapStart = i :=
  if_pos (by simp [hlap])

end LapStart

/-! ### The slots of a lap -/

section SlotRead

variable {i : Inst} {us : List Upset} {writeback : Bool}

/-- Once every part is read the command only brings its upsets (R248; log entry 12). -/
theorem Inst.scrubRead_allRead (hphase : (i.upsets us).scrub.phase = 0) : i.scrubRead us writeback = i.upsets us :=
  if_pos (by simp [hphase])

section Lap

variable (hrun : (i.upsets us).running = true) (hlap : (i.upsets us).scrub.running = true)
include hrun hlap

/-- The next slot of a lap is scrubbed, an update being written back meanwhile where one is, and the lap goes on behind it: at the next
slot of its parts, else at none (R248, R250; log entries 12 and 73). -/
theorem Inst.scrubRead_slot {p : Nat × Nat} (hphase : (i.upsets us).scrub.phase ≠ 0)
    (hnext : (i.upsets us).lapNext (i.upsets us).scrub.phase (i.upsets us).scrub.slot = some p) :
    i.scrubRead us writeback =
      (let n := (i.upsets us).scrubSlot p.2 (if writeback then Inst.updateWriteback else id)
       let q := (n.lapNext p.1 (p.2 + 1)).getD (0, p.2 + 1)
       ({ n with scrub := { n.scrub with phase := q.1, slot := q.2 } } : Inst).pump) := by
  simp only [Inst.scrubRead, hrun, hlap, hphase, hnext, Bool.not_true, Bool.false_or, decide_false, Bool.false_eq_true, if_false]
  cases ((i.upsets us).scrubSlot p.2 (if writeback then Inst.updateWriteback else id)).lapNext p.1 (p.2 + 1) with
  | none => rfl
  | some q => rfl

/-- Where no slot is left, every part of the lap is read (R248). -/
theorem Inst.scrubRead_noSlot (hphase : (i.upsets us).scrub.phase ≠ 0)
    (hnext : (i.upsets us).lapNext (i.upsets us).scrub.phase (i.upsets us).scrub.slot = none) :
    i.scrubRead us writeback = { i.upsets us with scrub := { (i.upsets us).scrub with phase := 0 } } := by
  simp only [Inst.scrubRead, hrun, hlap, hphase, hnext, Bool.not_true, Bool.false_or, decide_false, Bool.false_eq_true, if_false]

end Lap

end SlotRead

/-! ### The end of a lap, and what announces it -/

section Powered

variable {i : Inst} (hlap : i.scrub.running = true) (hoff : i.pw.state ≠ .off) (hrestoring : i.pw.state ≠ .restoring)
include hlap hoff hrestoring

/-- A lap whose parts are all read ends: it is counted and logged, with the debt it leaves, and the corrected lines are forgotten
(R241, R249, R352). -/
theorem Inst.lapDone_ends (ms : Nat) (hphase : i.scrub.phase = 0) :
    i.lapDone ms = (Inst.count Cnt.scrubLaps 1 { i with
      scrub := { i.scrub with running := false, lastMs := ms, late := decide (i.scrub.periodS * 1000 < ms), forced := false,
                              debt := debtAfter (i.reg 0x1D 0x104 0x708 % 2 ^ 17) i.scrub.debt 0 (ms / 1000) },
      ecc := { i.ecc with corr := [] } }).event 0x1D02 none [(24, 4, ms)] :=
  if_neg (by simp [hlap, hphase, hoff, hrestoring])

/-- A lap not yet announced as late is announced (R249). -/
theorem Inst.lapLate_announces (hnew : i.scrub.late = false) :
    i.lapLate = Inst.event 0x1D01 none [(24, 4, i.scrub.periodS)] { i with scrub := { i.scrub with late := true } } :=
  if_neg (by simp [hlap, hnew, hoff, hrestoring])

/-- A lap not yet forced is forced, and wakes the `Inst` (R249). -/
theorem Inst.lapForced_wakes (hnew : i.scrub.forced = false) :
    i.lapForced = (Inst.event 0x1D03 none [] { i with scrub := { i.scrub with forced := true } }).wakeUp :=
  if_neg (by simp [hlap, hnew, hoff, hrestoring])

end Powered

/-! ### Where the timers of a lap stand still -/

section Still

/-- No lap is under way, or its timers stand still: in OFF, and until a return has read the state back (R249). -/
def Inst.lapStill (i : Inst) : Prop := i.scrub.running = false ∨ i.pw.state = .off ∨ i.pw.state = .restoring

variable {i : Inst} (hstill : i.lapStill)
include hstill

theorem Inst.lapDone_still (ms : Nat) : i.lapDone ms = i :=
  if_pos (by obtain h | h | h := hstill <;> simp [h])

theorem Inst.lapLate_still : i.lapLate = i :=
  if_pos (by obtain h | h | h := hstill <;> simp [h])

theorem Inst.lapForced_still : i.lapForced = i :=
  if_pos (by obtain h | h | h := hstill <;> simp [h])

end Still

/-- Settles O18: a slot read by what is left of the lap on the `Inst` its upsets leave, each other command by the lap and the power state
it meets (log entries 12 and 73). -/
theorem scrubLaps : Obligations.ScrubLaps := by
  intro s k hs i
  refine ⟨?starts, ?underWay, ?read, ?ends, ?late, ?forced, ?still⟩
  case starts =>
    intro hready hnone hstate
    exact runInst_change hs (Inst.lapStart_starts hready hnone hstate)
  case underWay =>
    intro hlap
    exact runInst_change hs (Inst.lapStart_underWay hlap)
  case read =>
    intro us wb hrun hlap j
    exact ⟨fun p hphase hnext => runInst_change hs (Inst.scrubRead_slot hrun hlap hphase hnext),
      fun hphase hnext => runInst_change hs (Inst.scrubRead_noSlot hrun hlap hphase hnext),
      fun hphase => runInst_change hs (Inst.scrubRead_allRead hphase)⟩
  case ends =>
    intro ms hlap hphase hoff hrestoring
    exact runInst_change hs (Inst.lapDone_ends hlap hoff hrestoring ms hphase)
  case late =>
    intro hlap hnew hoff hrestoring
    exact runInst_change hs (Inst.lapLate_announces hlap hoff hrestoring hnew)
  case forced =>
    intro hlap hnew hoff hrestoring
    exact runInst_change hs (Inst.lapForced_wakes hlap hoff hrestoring hnew)
  case still =>
    intro h
    have hstill : i.lapStill := h
    exact ⟨fun ms => runInst_change hs (Inst.lapDone_still hstill ms), runInst_change hs (Inst.lapLate_still hstill),
      runInst_change hs (Inst.lapForced_still hstill)⟩

end Sys2Proof.Machine
end

section
/-! PROOFS. Supply and resets (R321, R330 to R334, R342): the queue of a running die, an unpowered die, and what a reset leaves. -/

namespace Sys2Proof.Machine

/-! ### The queue of a running die -/

section Queue

variable {c : Instr} {s t : State}

/-- The state a step answers; a state whose step answers none stays. -/
def State.stepped (s : State) : State :=
  match step s with
  | .next t => t
  | _ => s

theorem State.stepped_of_step (h : step s = .next t) : s.stepped = t := by
  simp only [State.stepped, h]

/-- A running die answers each command that does not switch the supply; supply and queue stand (R321). -/
theorem exec_answers (hc : ofSupply c = false) (hs : s.supply = .on) : ∃ t, exec c s = .next t ∧ t.supply = .on ∧ t.pending = s.pending := by
  obtain ⟨f, hf⟩ := exec_runDie c hc
  exact ⟨_, (hf s).trans (runDie_on hs), hs, rfl⟩

/-- An unpowered die changes nothing at such a command (R342). -/
theorem exec_unpowered (hc : ofSupply c = false) (hs : s.supply = .off) : exec c s = .next s := by
  obtain ⟨f, hf⟩ := exec_runDie c hc
  exact (hf s).trans (runDie_off hs)

/-- A stopped engine faults at it (R321; log entry 18). -/
theorem exec_stopped (hc : ofSupply c = false) (hs : s.supply = .stopped) : exec c s = .fault .engineStopped := by
  obtain ⟨f, hf⟩ := exec_runDie c hc
  exact (hf s).trans (runDie_stopped hs)

/-- A queue of such commands loses its front with each step of a running die. -/
theorem step_pops {rest : List Instr} (hs : s.supply = .on) (hq : s.pending = c :: rest) (hc : ofSupply c = false) :
    step s = .next s.stepped ∧ s.stepped.supply = .on ∧ s.stepped.pending = rest := by
  obtain ⟨t, ht, hon, hrest⟩ := exec_answers (s := { s with pending := rest }) hc hs
  have hstep : step s = .next t := by simp only [step, hq, ht]
  rw [State.stepped_of_step hstep]
  exact ⟨hstep, hon, hrest⟩

/-- The steps of a running die carry out a queue of such commands, one command each. -/
theorem steps_carry_out (hs : s.supply = .on) (hq : s.pending.all (fun c => !ofSupply c) = true) :
    (∀ n < s.pending.length, step (State.stepped^[n] s) = .next (State.stepped^[n + 1] s)) ∧
      (State.stepped^[s.pending.length] s).pending = [] ∧ (State.stepped^[s.pending.length] s).supply = .on := by
  generalize hl : s.pending = l at hq
  induction l generalizing s with
  | nil => exact ⟨fun n hn => absurd hn (Nat.not_lt_zero n), hl, hs⟩
  | cons c rest ih =>
    simp only [List.all_cons, Bool.and_eq_true, Bool.not_eq_true'] at hq
    obtain ⟨hc, hrest⟩ := hq
    obtain ⟨hstep, hon, hleft⟩ := step_pops hs hl hc
    obtain ⟨hsteps, hend⟩ := ih hon hleft hrest
    refine ⟨fun n hn => ?_, hend⟩
    cases n with
    | zero => exact hstep
    | succ n => exact hsteps n (Nat.lt_of_succ_lt_succ hn)

end Queue

/-- Settles O52: each command by the supply, the queue by induction on the commands that wait. -/
theorem queueDrains : Obligations.QueueDrains := by
  refine ⟨fun c s hc => ⟨exec_answers hc, exec_unpowered hc, exec_stopped hc⟩, fun s hs hq => ?_⟩
  exact ⟨fun n => State.stepped^[n] s, rfl, steps_carry_out hs hq⟩

/-! ### The unpowered die -/

/-- What a loss of power leaves of a zone, a second one leaves too (R292). -/
theorem ColdSt.sealedOnly_idem (c : ColdSt) : c.sealedOnly.sealedOnly = c.sealedOnly := by
  simp only [ColdSt.sealedOnly, List.map_map]
  congr 1
  refine List.map_congr_left fun z _ => ?_
  simp only [Function.comp]
  split
  · rfl
  · rfl

/-- The die-wide section of a dark die is dark. -/
theorem Die.dark_idem (d : Die) : d.dark.dark = d.dark := rfl

/-- An `Inst` of a dark die is dark: what outlasts the supply outlasts a second loss of it (R331, R342). -/
theorem Inst.dark_idem (n : Nat) (i : Inst) : Inst.dark n (Inst.dark n i) = Inst.dark n i := by
  have hkept : (Inst.dark n i).nonVol = i.nonVol := by
    change ({ i.nonVol with cold := i.cold.sealedOnly.sealedOnly } : NonVol) = i.nonVol
    rw [ColdSt.sealedOnly_idem]; rfl
  simp only [Inst.dark] at hkept ⊢
  rw [hkept]

section Dark

variable {c : Instr} {s t : State}

/-- The commands that switch the supply. -/
theorem supply_command (hc : ofSupply c = true) : c = .diePowerOn ∨ c = .diePowerLoss ∨ c = .aonClockStop := by
  unfold ofSupply at hc
  split at hc
  · exact .inl rfl
  · exact .inr (.inl rfl)
  · exact .inr (.inr rfl)
  · cases hc

/-- An unpowered die starts when it is given power (R334). -/
theorem exec_diePowerOn_off (hs : s.supply = .off) : exec .diePowerOn s = .next { s with supply := .on } := by
  change execDiePowerOn s = _
  simp only [execDiePowerOn, hs]

/-- A loss of power leaves a powered die what outlasts its supply (R342). -/
theorem exec_diePowerLoss_powered (hs : s.supply ≠ .off) :
    exec .diePowerLoss s =
      .next { s with supply := .off, die := s.die.dark, insts := Vector.ofFn (fun k => Inst.dark k.val s.insts[k]) } := by
  change execDiePowerLoss s = _
  unfold execDiePowerLoss
  split
  · rename_i hoff
    exact absurd hoff hs
  · rfl

/-- A stop of the AON clock stops a powered die (R321). -/
theorem exec_aonClockStop_powered (hs : s.supply ≠ .off) : exec .aonClockStop s = .next { s with supply := .stopped } := by
  change execAonClockStop s = _
  unfold execAonClockStop
  split
  · rename_i hoff
    exact absurd hoff hs
  · rfl

/-- An unpowered die has no power to lose and no clock to stop (R342). -/
theorem exec_supply_unpowered (hs : s.supply = .off) : exec .diePowerLoss s = .next s ∧ exec .aonClockStop s = .next s := by
  constructor
  · change execDiePowerLoss s = _
    simp only [execDiePowerLoss, hs]
  · change execAonClockStop s = _
    simp only [execAonClockStop, hs]

/-- A loss of power leaves the die dark (R342). -/
theorem exec_diePowerLoss_dark (hs : s.supply ≠ .off) : ∃ t, exec .diePowerLoss s = .next t ∧ t.supply = .off ∧ t.darkWhenOff := by
  refine ⟨_, exec_diePowerLoss_powered hs, rfl, fun _ => ⟨Die.dark_idem _, fun k => ?_⟩⟩
  simp [Inst.dark_idem]

/-- A command after which the die has no power found it so and changed nothing, or took the power from it. -/
theorem exec_leaves_off (h : exec c s = .next t) (ht : t.supply = .off) :
    (s.supply = .off ∧ t = s) ∨ (s.supply ≠ .off ∧ c = .diePowerLoss) := by
  by_cases hs : s.supply = .off
  · refine .inl ⟨hs, ?_⟩
    cases hc : ofSupply c with
    | false => rw [exec_unpowered hc hs] at h; cases h; rfl
    | true =>
      obtain ⟨hloss, hstop⟩ := exec_supply_unpowered hs
      obtain rfl | rfl | rfl := supply_command hc
      · rw [exec_diePowerOn_off hs] at h; cases h; cases ht
      · rw [hloss] at h; cases h; rfl
      · rw [hstop] at h; cases h; rfl
  · refine .inr ⟨hs, ?_⟩
    cases hc : ofSupply c with
    | false =>
      obtain ⟨f, hf⟩ := exec_runDie c hc
      obtain ⟨hkept, -⟩ := runDie_frame ((hf s).symm.trans h)
      exact absurd (hkept.symm.trans ht) hs
    | true =>
      obtain rfl | rfl | rfl := supply_command hc
      · change execDiePowerOn s = _ at h
        unfold execDiePowerOn at h
        split at h <;> cases h
        · exact absurd ht hs
        · cases ht
      · rfl
      · rw [exec_aonClockStop_powered hs] at h; cases h; cases ht

end Dark

/-- Settles O55: the die is powered at reset, and a loss of power leaves it dark. -/
theorem darkAtReset : Obligations.DarkAtReset :=
  ⟨(nomatch ·), fun _ hs => exec_diePowerLoss_dark hs⟩

/-- Settles O54: a step after which the die has no power left an unpowered die as it was, or was the loss of power itself. -/
theorem darkWhenOffKept : Obligations.DarkWhenOffKept := by
  intro s t hdark hstep
  cases hq : s.pending with
  | nil =>
    have ht : s.tick = t := by simpa only [step, hq, Host.Outcome.next.injEq] using hstep
    intro hoff
    have hs : s.supply = .off := by rw [← State.tick_supply s, ht]; exact hoff
    have hsame : s.tick = s := by simp only [State.tick, hs]
    rw [← ht, hsame]
    exact hdark hs
  | cons c rest =>
    have hexec : exec c { s with pending := rest } = .next t := by simpa only [step, hq] using hstep
    intro hoff
    obtain ⟨hs, rfl⟩ | ⟨hs, rfl⟩ := exec_leaves_off hexec hoff
    · exact hdark hs
    · obtain ⟨u, hu, -, hudark⟩ := exec_diePowerLoss_dark hs
      rw [hu] at hexec
      cases hexec
      exact hudark hoff

/-! ### Resets -/

section Resets

variable {k : InstId} {s : State}

/-- The accesses that several of the `Inst` hold, judged one after another (R42). -/
theorem State.settled_foldl (l : List InstId) (s : State) :
    l.foldl (fun s k => s.settled k) s =
      { s with die := (l.foldl (fun p k => settle k p) (s.die, s.insts)).1, insts := (l.foldl (fun p k => settle k p) (s.die, s.insts)).2 } := by
  induction l generalizing s with
  | nil => rfl
  | cons k t ih => rw [List.foldl_cons, ih]; rfl

/-- A warm reset of a running die: every `Inst` by `f`, the LOCK bits, the die-wide section, then what they held (R330 to R332). -/
theorem exec_dieWarmReset {preserve : Bool} {f : Inst → Inst} (hs : s.supply = .on)
    (hf : (fun i : Inst => if preserve then i.preserve.reset 2 s.die.pll else i.reset 1 s.die.pll) = f) :
    exec (.dieWarmReset preserve) s = .next ((List.finRange 8).foldl (fun s k => s.settled k)
      (((s.changeAll f).changeAll (fun i => { i with ctl := { i.ctl with locks := [] } })).changeDie Die.warmReset)) := by
  change execDieWarmReset preserve s = _
  rw [execDieWarmReset, runDie_on hs, State.settled_foldl, State.changeAll_eq f, State.changeAll_eq]
  simp only [hf, State.changeDie, Inst.ctlMap]

/-- A change of the die-wide section of a running die and then of every `Inst`. -/
theorem runDie_all (g : Die → Die) (f : Inst → Inst) (hs : s.supply = .on) :
    runDie (fun d v => onAll f (g d) v) s = .next ((s.changeDie g).changeAll f) := by
  rw [runDie_on hs, State.changeAll_eq]
  rfl

end Resets

/-- Settles O27: a reset of one `Inst`, of all, the loss of the PLL, and the supply by whether the die has any (log entries 18, 41 and
110). -/
theorem resetsAndSupply : Obligations.ResetsAndSupply := by
  intro s
  refine ⟨fun hs => ⟨fun k => ?one, ?warm, ?preserve, ?pll⟩, exec_diePowerOn_off, exec_diePowerLoss_powered, exec_supply_unpowered,
    exec_aonClockStop_powered⟩
  case one =>
    change runDie (fun d v => settle k (onInst k (Inst.reset 0 d.pll) d v)) s = _
    rw [runDie_on hs]
    rfl
  case warm => exact exec_dieWarmReset hs rfl
  case preserve => exact exec_dieWarmReset hs rfl
  case pll => exact runDie_all (fun d => { d with pll := false }) (fun i => if i.clocked then i.selfFault 0x14 0 else i) hs

/-- Settles O28: a reset sends its heartbeats, enters RESETTING, and clears the datapath and the SRAM (R330, R331). -/
theorem resetKeeps : Obligations.ResetKeeps :=
  fun _ _ _ => ⟨rfl, rfl, rfl, rfl, rfl, rfl, fun _ => rfl, rfl, rfl, rfl, rfl, rfl, rfl, rfl, rfl, rfl, rfl, rfl, rfl⟩

/-- Settles O29: every `Inst` of the state after reset is one at die power-on. -/
theorem resetState : Obligations.ResetState := by
  refine ⟨rfl, rfl, rfl, rfl, rfl, rfl, fun k => ?_⟩
  have hk : State.reset.insts[k] = Inst.powerOn k.val NonVol.fresh := by simp [State.reset]
  rw [hk]
  exact ⟨rfl, rfl, rfl, fun _ => rfl, rfl, rfl, rfl, rfl, rfl, rfl, rfl, rfl, rfl, rfl, rfl, rfl, rfl, rfl⟩

end Sys2Proof.Machine
end

section
/-! PROOFS. The fabric's operations, answers and timers (R257, R258, R264, R265, R269, R273, R274, R277): an operation in its turn, one ahead of
it, an answer by the entry its tag names, and what the timers of the port begin. -/

namespace Sys2Proof.Machine

/-! ### An operation in its turn -/

section Turn

variable {k : InstId} {s : State} {i : Inst} {o : InOp}

/-- An operation that arrives whole and resets no channel is judged by the SEQ its channel expects next (R269). -/
theorem Inst.arrive_onChannel {n : Nat} (hact : i.pw.state = .active) (hcut : o.body.cut = false) (hreset : o.resets = false)
    (hnext : (i.chan (hdrHome o.hdr)).inNext = some n) : i.arrive o = ((i.forgetPartial o).arriveChan o n).checkAllDone.pump := by
  have hforgot : ((i.forgetPartial o).chan (hdrHome o.hdr)).inNext = some n := hnext
  rw [Inst.arrive_whole hact hcut]
  cases hbody : o.body with
  | handshake b =>
    have hflag : b.channelReset = false := InOp.channelReset_eq_false hreset hbody
    simp only [Inst.arriveWhole, hbody, hflag, hforgot, Bool.false_eq_true, if_false]
  | _ => simp only [Inst.arriveWhole, hbody, hforgot]

/-- An operation whose SEQ is the next one waits for no other (R269). -/
theorem Chan.ripe_next {c : Chan} (hnext : c.inNext = some o.hdr.seq) : c.ripe o = true := by
  have hdist : (o.hdr.seq + 2 ^ 32 - o.hdr.seq) % 2 ^ 32 = 0 := by omega
  simp only [Chan.ripe, hnext, hdist]
  rfl

/-- An operation in its turn is taken, and the operations behind it after it (R269). -/
theorem Inst.arrive_takes (hturn : i.inTurn o) (hreset : o.resets = false) :
    i.arrive o = ((((i.forgetPartial o).takeOp o).drainChan (hdrHome o.hdr) 64).checkAllDone).pump := by
  obtain ⟨-, hcut, hact, hnext, -, hanswered, hdeferred, hwaiting, -⟩ := hturn
  have hchan : (i.forgetPartial o).chan (hdrHome o.hdr) = i.chan (hdrHome o.hdr) := rfl
  have hdist : (o.hdr.seq + 2 ^ 32 - o.hdr.seq) % 2 ^ 32 = 0 := by omega
  rw [Inst.arrive_onChannel hact hcut hreset hnext]
  simp only [Inst.arriveChan, hchan, hdist, hanswered, hdeferred, hwaiting, Chan.ripe_next hnext]
  rfl

/-- An operation in its turn that its rule answers is answered so, with the poison flags of the answer (R258, R264). -/
theorem Inst.arrive_answered {j : Inst} {r : RespBody} {poison : Nat} (hturn : i.inTurn o) (hreset : o.resets = false)
    (happlied : (i.forgetPartial o).applyBody o = (j, some (r, poison))) :
    i.arrive o = ((((j.answerOp o r poison).drainChan (hdrHome o.hdr) 64).checkAllDone).pump) := by
  rw [Inst.arrive_takes hturn hreset]
  obtain ⟨-, -, -, -, -, -, -, -, hpass⟩ := hturn
  have hforgot : (i.forgetPartial o).receive o.hdr o.body = none := hpass
  simp only [Inst.takeOp, hforgot, happlied]

/-- The command that brings an operation in its turn applies it by its rule `f` and answers it (R258, R264). -/
theorem arrival_applied {f : Inst → Inst × RespBody} (hs : s.supply = .on) (hturn : (s.seen k).inTurn o) (hreset : o.resets = false)
    (hrule : ∀ j : Inst, j.applyBody o = ((f j).1, some ((f j).2, 0))) :
    exec (arrival k o) s = .next (s.change k (Inst.applied o f)) :=
  arrival_change hs hturn.1 (Inst.arrive_in_turn hturn hreset f (hrule _))

/-- A FRAG_READ of a mode and role it may have is served by the holder's rule (R260). -/
theorem Inst.applyBody_fragRead {h : FabHdr} {b : FragBody} (i : Inst)
    (hmode : (b.mode = 0 ∧ b.role = 0) ∨ (b.mode = 1 ∧ 1 ≤ b.role ∧ b.role ≤ 3) ∨ (b.mode = 2 ∧ 1 ≤ b.role ∧ b.role ≤ 2)) :
    i.applyBody ⟨h, .fragRead b⟩ = i.holderFrag h.ctx b :=
  if_neg (by omega)

end Turn

/-- Settles O11: each operation by the rule `Inst.applyBody` gives its body, a FRAG_READ with the poison flags its fragment carries (log
entries 1, 99 and 145). -/
theorem operationsApplied : Obligations.OperationsApplied := by
  intro s k h hs i
  refine ⟨fun b p ht => ?delta, fun b p ht => ?shadow, fun b ht => ?commit, fun e ht => ?put, fun b ht => ?retire, fun b ht => ?read,
    fun b p ht => ?rebuild, fun b ht => ?cutover, fun e ht => ?gradient, fun r ht => ?reemit, fun d ht => ?degraded, fun b ht => ?unlisted,
    fun b hreset ht => ?handshake, fun b j r poison ht hmode hfrag => ?frag⟩
  case delta => exact arrival_applied hs ht rfl fun _ => rfl
  case shadow => exact arrival_applied hs ht rfl fun _ => rfl
  case commit => exact arrival_applied hs ht rfl fun _ => rfl
  case put => exact arrival_applied hs ht rfl fun _ => rfl
  case retire => exact arrival_applied hs ht rfl fun _ => rfl
  case read => exact arrival_applied hs ht rfl fun _ => rfl
  case rebuild => exact arrival_applied hs ht rfl fun _ => rfl
  case cutover => exact arrival_applied hs ht rfl fun _ => rfl
  case gradient => exact arrival_applied (f := Inst.holderForward h e) hs ht rfl fun _ => rfl
  case reemit => exact arrival_applied hs ht rfl fun _ => rfl
  case degraded => exact arrival_applied hs ht rfl fun _ => rfl
  case handshake => exact arrival_applied hs ht hreset fun _ => rfl
  case unlisted =>
    obtain ⟨⟨-, hlisted⟩, -⟩ := id ht
    rw [arrival_unlisted (hlisted _ rfl)]
    exact runInst_change hs (Inst.arrive_in_turn ht rfl (fun i => i.malformed h.opcode h) rfl)
  case frag =>
    exact arrival_change hs ht.1 (Inst.arrive_answered ht rfl ((Inst.applyBody_fragRead _ hmode).trans hfrag))

/-! ### An operation ahead of its turn -/

section Partials

variable (o : InOp) (i : Inst) (x n t : Nat)

@[simp] theorem Inst.forgetPartial_shareBytes : (i.forgetPartial o).shareBytes t = i.shareBytes t := by
  unfold Inst.shareBytes
  split <;> rfl

@[simp] theorem Inst.forgetPartial_onlyCtx : ((i.forgetPartial o).onlyCtx x).shareBytes t = (i.onlyCtx x).shareBytes t := by
  unfold Inst.shareBytes
  split <;> rfl

@[simp] theorem Inst.forgetPartial_shareHeld : (i.forgetPartial o).shareHeld t = i.shareHeld t := rfl
@[simp] theorem Inst.forgetPartial_ctx : (i.forgetPartial o).ctx x = i.ctx x := rfl
@[simp] theorem Inst.forgetPartial_ctxs : (i.forgetPartial o).ctxs = i.ctxs := rfl
@[simp] theorem Inst.forgetPartial_pool : (i.forgetPartial o).pool = i.pool := rfl


/-- What has arrived of an operation takes no room (R316). -/
theorem Inst.forgetPartial_ctxRoom : (i.forgetPartial o).ctxRoom x t n = i.ctxRoom x t n := by
  simp only [Inst.ctxRoom, Inst.shareRoom, Inst.shareUsed, Inst.freeBuffers, Inst.ctxHeld, Inst.forgetPartial_shareBytes,
    Inst.forgetPartial_onlyCtx, Inst.forgetPartial_shareHeld, Inst.forgetPartial_ctx, Inst.forgetPartial_ctxs, Inst.forgetPartial_pool]
  rfl

end Partials

section Ahead

variable {i : Inst} {o : InOp} {n : Nat} (hanswered : (i.chan (hdrHome o.hdr)).answered.contains o.hdr.seq = false)
  (hdeferred : (i.chan (hdrHome o.hdr)).deferred.contains o.hdr.seq = false)
include hanswered hdeferred

/-- An operation 64 or more ahead of the next one is dropped and counted (R269). -/
theorem Inst.arriveChan_farAhead (hfar : 64 ≤ (o.hdr.seq + 2 ^ 32 - n) % 2 ^ 32) (hahead : (o.hdr.seq + 2 ^ 32 - n) % 2 ^ 32 < 2 ^ 31) :
    i.arriveChan o n = i.count Cnt.fabricSeqDrop 1 := by
  simp only [Inst.arriveChan, hanswered, hdeferred, decide_eq_false (Nat.not_le.mpr hahead), Bool.or_false, Bool.false_eq_true, if_false,
    if_pos hfar]

section Gap

variable (hnear : (o.hdr.seq + 2 ^ 32 - n) % 2 ^ 32 < 64)
  (hnew : (i.chan (hdrHome o.hdr)).waiting.any (fun w => w.hdr.seq = o.hdr.seq) = false) (hgap : (i.chan (hdrHome o.hdr)).ripe o = false)
include hnear hnew hgap

/-- One ahead of a gap that the receiver's checks pass waits where it finds space (R269, R316). -/
theorem Inst.arriveChan_waits (hpass : i.receive o.hdr o.body = none) (hspace : i.ctxRoom o.hdr.ctx 1 (256 * (1 + o.body.payload.length)) = true) :
    i.arriveChan o n = i.setChan { i.chan (hdrHome o.hdr) with waiting := (i.chan (hdrHome o.hdr)).waiting ++ [o] } := by
  have hahead : ¬ 2 ^ 31 ≤ (o.hdr.seq + 2 ^ 32 - n) % 2 ^ 32 := by omega
  simp only [Inst.arriveChan, hanswered, hdeferred, decide_eq_false hahead, Bool.or_false, Bool.false_eq_true, if_false,
    if_neg (Nat.not_le.mpr hnear), hnew, hgap, hpass, hspace, if_true]

/-- Without space it is not kept, and the failure is counted (R269, R317). -/
theorem Inst.arriveChan_noSpace (hpass : i.receive o.hdr o.body = none)
    (hfull : i.ctxRoom o.hdr.ctx 1 (256 * (1 + o.body.payload.length)) = false) : i.arriveChan o n = i.poolFail 1 := by
  have hahead : ¬ 2 ^ 31 ≤ (o.hdr.seq + 2 ^ 32 - n) % 2 ^ 32 := by omega
  simp only [Inst.arriveChan, hanswered, hdeferred, decide_eq_false hahead, Bool.or_false, Bool.false_eq_true, if_false,
    if_neg (Nat.not_le.mpr hnear), hnew, hgap, hpass, hfull]

/-- One that the receiver's checks refuse is answered at once (R269). -/
theorem Inst.arriveChan_refused {r : RespBody} (hrefused : i.receive o.hdr o.body = some r) :
    i.arriveChan o n = (i.answerOp o r 0).drainChan (hdrHome o.hdr) 64 := by
  have hahead : ¬ 2 ^ 31 ≤ (o.hdr.seq + 2 ^ 32 - n) % 2 ^ 32 := by omega
  simp only [Inst.arriveChan, hanswered, hdeferred, decide_eq_false hahead, Bool.or_false, Bool.false_eq_true, if_false,
    if_neg (Nat.not_le.mpr hnear), hnew, hgap, hrefused]

end Gap

end Ahead

/-- Settles O13: far ahead of the next SEQ, or ahead of a gap by what the receiver's checks and the space left make of it (log entry 145 for
what an earlier attempt brought). -/
theorem sequenceWindow : Obligations.SequenceWindow := by
  intro s k o n hs ho hcut i c d hact hreset hnext hanswered hdeferred
  have harrive : ∀ {j : Inst}, (i.forgetPartial o).arriveChan o n = j → i.arrive o = j.checkAllDone.pump := by
    intro j hj
    rw [Inst.arrive_onChannel hact hcut hreset hnext, hj]
  refine ⟨fun ⟨hfar, hahead⟩ => ?far, fun hnear hnew hgap =>
    ⟨fun hpass hspace => ?waits, fun hpass hfull => ?noSpace, fun r hrefused => ?refused⟩⟩
  case far => exact arrival_change hs ho (harrive (Inst.arriveChan_farAhead hanswered hdeferred hfar hahead))
  case waits =>
    have hroom : (i.forgetPartial o).ctxRoom o.hdr.ctx 1 (256 * (1 + o.body.payload.length)) = true := by rw [Inst.forgetPartial_ctxRoom, hspace]
    exact arrival_change hs ho (harrive (Inst.arriveChan_waits hanswered hdeferred hnear hnew hgap hpass hroom))
  case noSpace =>
    have hroom : (i.forgetPartial o).ctxRoom o.hdr.ctx 1 (256 * (1 + o.body.payload.length)) = false := by rw [Inst.forgetPartial_ctxRoom, hfull]
    exact arrival_change hs ho (harrive (Inst.arriveChan_noSpace hanswered hdeferred hnear hnew hgap hpass hroom))
  case refused =>
    have hjudged := Inst.arriveChan_refused (i := i.forgetPartial o) hanswered hdeferred hnear hnew hgap hrefused
    exact arrival_change hs ho (harrive hjudged)

/-! ### Answers -/

section Answers

variable {i : Inst} {h : FabHdr} {b : RespBody}

/-- A tag of the entry's generation names it (R273). -/
theorem Inst.liveEntry_current {tag : Nat} {e : CplEntry} (hentry : i.fab.cpl.find (tag % 2 ^ 13) = some e) (hgen : e.gen = tag / 2 ^ 13) :
    i.liveEntry tag = some e := by
  simp only [Inst.liveEntry, hentry, if_pos hgen]

/-- A tag of another generation names none (R273). -/
theorem Inst.liveEntry_stale {tag : Nat} {e : CplEntry} (hentry : i.fab.cpl.find (tag % 2 ^ 13) = some e) (hgen : e.gen ≠ tag / 2 ^ 13) :
    i.liveEntry tag = none := by
  simp only [Inst.liveEntry, hentry, if_neg hgen]

/-- A tag whose place is free names none (R273). -/
theorem Inst.liveEntry_none {tag : Nat} (hnone : i.fab.cpl.find (tag % 2 ^ 13) = none) : i.liveEntry tag = none := by
  simp only [Inst.liveEntry, hnone]

/-- At an `Inst` that serves its fabric port, an answer to a live entry frees it and goes to its operation while the context is LIVE; the first
answer to an offer resumes the channel (R264, R266, R273, R274). -/
theorem Inst.response_live {e : CplEntry} (hserves : i.pw.state = .active ∨ i.pw.state = .doze ∨ i.pw.state = .nap ∨ i.pw.state = .goingOff)
    (hlive : i.liveEntry h.tag = some e) :
    i.response h b =
      (let j : Inst := { i with fab := { i.fab with cpl := i.fab.cpl.del (h.tag % 2 ^ 13) } }
       let n := if b.status ≠ St.instOff && e.op.body.isReset then j.resumeChan e.op.dst e.seq else j
       if (i.ctx e.op.ctx).live then (n.answered e.op b h.poison).checkAllDone.pump else n.pump) := by
  obtain hstate | hstate | hstate | hstate := hserves <;> simp only [Inst.response, hstate, hlive]

/-- At one that is off, starting or faulted every answer is late (R273; log entry 14). -/
theorem Inst.response_away (haway : i.pw.state = .off ∨ i.pw.state = .restoring ∨ i.pw.state = .starting ∨ i.pw.state = .resetting ∨
    i.pw.state = .faulted) : i.response h b = i.count Cnt.fabricLateAnswer 1 := by
  obtain hstate | hstate | hstate | hstate | hstate := haway <;> simp only [Inst.response, hstate]

/-- An answer that names no live entry is late, whatever the power state (R273). -/
theorem Inst.response_unmatched (hnone : i.liveEntry h.tag = none) : i.response h b = i.count Cnt.fabricLateAnswer 1 := by
  simp only [Inst.response, hnone]
  split <;> rfl

end Answers

/-- Settles O14: in the power states that serve the port by the entry the tag names, in the others late (log entry 14). -/
theorem answersMatched : Obligations.AnswersMatched := by
  intro s k h b hs i
  refine ⟨fun e hserves hentry hgen => ?live, fun e hserves hentry hgen => ?stale, fun hnone => ?unnamed, fun haway => ?away⟩
  case live => exact runInst_change hs (Inst.response_live hserves (Inst.liveEntry_current hentry hgen))
  case stale => exact runInst_change hs (Inst.response_unmatched (Inst.liveEntry_stale hentry hgen))
  case unnamed => exact runInst_change hs (Inst.response_unmatched (Inst.liveEntry_none hnone))
  case away => exact runInst_change hs (Inst.response_away haway)

/-! ### Timers of the port -/

section Timers

variable {i : Inst} {n : Nat}

section Retransmission

variable {e : CplEntry} (hrun : i.running = true) (hentry : i.fab.cpl.find n = some e)
include hrun hentry

/-- On a channel that waits, an operation that is no offer with CHANNEL_RESET goes back to its owner (R273). -/
theorem Inst.fabricTimeout_returned (hwaits : ((i.chan e.op.dst).parked || (i.chan e.op.dst).offWait) = true)
    (hreset : e.op.body.isReset = false) :
    i.fabricTimeout n = (Inst.requeue e.op { i with fab := { i.fab with cpl := i.fab.cpl.del n } }).pump := by
  simp [Inst.fabricTimeout, hrun, hentry, hwaits, hreset]

/-- Such an offer is given up on a channel that waits after its third retransmission (R273). -/
theorem Inst.fabricTimeout_givenUp (hwaits : ((i.chan e.op.dst).parked || (i.chan e.op.dst).offWait) = true)
    (hreset : e.op.body.isReset = true) (htries : 3 ≤ e.tries) :
    i.fabricTimeout n = { i with fab := { i.fab with cpl := i.fab.cpl.del n } } := by
  simp [Inst.fabricTimeout, hrun, hentry, hwaits, hreset, Nat.not_lt.mpr htries]

/-- What may still be sent is retransmitted up to three times (R273). -/
theorem Inst.fabricTimeout_retransmits
    (hsends : ((i.chan e.op.dst).parked || (i.chan e.op.dst).offWait) = false ∨ e.op.body.isReset = true) (htries : e.tries < 3) :
    i.fabricTimeout n =
      (Inst.count Cnt.fabricRetransmit 1 { i with fab := { i.fab with cpl := i.fab.cpl.put n { e with tries := e.tries + 1 } } }).putOp e.op e.seq
        (n + 2 ^ 13 * e.gen) true e.version := by
  have hkept : (((i.chan e.op.dst).parked || (i.chan e.op.dst).offWait) && !e.op.body.isReset) = false := by
    obtain h | h := hsends <;> simp [h]
  simp only [Inst.fabricTimeout, hrun, hentry, hkept, htries, Bool.not_true, Bool.false_eq_true, if_false, if_true]

/-- After the third retransmission the channel is parked (R273, R274). -/
theorem Inst.fabricTimeout_parks (htries : 3 ≤ e.tries) (hparked : (i.chan e.op.dst).parked = false)
    (hwait : (i.chan e.op.dst).offWait = false) : i.fabricTimeout n = (i.park e.op.dst).pump := by
  simp [Inst.fabricTimeout, hrun, hentry, hparked, hwait, Nat.not_lt.mpr htries]

end Retransmission

/-- A timer of an entry that is free ends without effect. -/
theorem Inst.fabricTimeout_free (hnone : i.fab.cpl.find n = none) : i.fabricTimeout n = i := by
  simp [Inst.fabricTimeout, hnone]

section Offers

variable {h : Home}

/-- A parked channel offers anew (R274). -/
theorem Inst.parkedOffer_parked (hrun : i.running = true) (hparked : (i.chan h).parked = true) : i.parkedOffer h = i.offerAnew h :=
  if_pos (by simp [hrun, hparked])

/-- The offer of a channel that is not parked is not due. -/
theorem Inst.parkedOffer_open (hopen : (i.chan h).parked = false) : i.parkedOffer h = i :=
  if_neg (by simp [hopen])

/-- A channel to an `Inst` that is OFF offers anew (R273). -/
theorem Inst.offWaitOffer_waiting (hrun : i.running = true) (hwaits : (i.chan h).offWait = true) : i.offWaitOffer h = i.offerAnew h :=
  if_pos (by simp [hrun, hwaits])

/-- The offer of a channel that waits for no such `Inst` is not due. -/
theorem Inst.offWaitOffer_open (hopen : (i.chan h).offWait = false) : i.offWaitOffer h = i :=
  if_neg (by simp [hopen])

end Offers

/-- An operation of no coding queue whose RETRY_AFTER has passed goes back to the queue; an offer that has been matched meanwhile would
not (R265). -/
theorem Inst.retryExpiry_requeued {o : OutOp} (hwaits : i.fab.retry.find? (fun o => o.id = n) = some o)
    (hcoding : ∀ r f c, o.owner ≠ .coding r f c) (hoffer : o.owner = .offer → i.matched o.ctx o.dst = false) :
    i.retryExpiry n = (Inst.requeue o { i with fab := { i.fab with retry := i.fab.retry.filter (fun p => p.id ≠ n) } }).pump := by
  cases howner : o.owner with
  | coding r f c => exact absurd howner (hcoding r f c)
  | offer =>
    have hunmatched : Inst.matched { i with fab := { i.fab with retry := i.fab.retry.filter (fun p => p.id ≠ n) } } o.ctx o.dst = false :=
      hoffer howner
    simp only [Inst.retryExpiry, hwaits, howner, hunmatched, Bool.false_eq_true, if_false]
  | _ => simp only [Inst.retryExpiry, hwaits, howner]

end Timers

/-- Settles O15: a retransmission timer by the tries and the channel of its entry, an offer by whether its channel waits, a RETRY_AFTER by the
operation's owner. -/
theorem fabricTimers : Obligations.FabricTimers := by
  intro s k hs i waits
  refine ⟨fun n e hrun hentry hwaits hreset => ?returned, fun n e hrun hentry hwaits hreset htries => ?givenUp,
    fun n e hrun hentry hsends htries => ?retransmits, fun n e hrun hentry htries hparked hwait => ?parks, fun n hnone => ?free,
    fun h hrun hparked => ?parked, fun h hopen => ?unparked, fun h hrun hwaits => ?offWait, fun h hopen => ?noWait,
    fun n o hretry hcoding hoffer => ?retry, fun _ _ => runInst_on hs⟩
  case returned => exact runInst_change hs (Inst.fabricTimeout_returned hrun hentry hwaits hreset)
  case givenUp => exact runInst_change hs (Inst.fabricTimeout_givenUp hrun hentry hwaits hreset htries)
  case retransmits => exact runInst_change hs (Inst.fabricTimeout_retransmits hrun hentry hsends htries)
  case parks => exact runInst_change hs (Inst.fabricTimeout_parks hrun hentry htries hparked hwait)
  case free => exact runInst_change hs (Inst.fabricTimeout_free hnone)
  case parked => exact runInst_change hs (Inst.parkedOffer_parked hrun hparked)
  case unparked => exact runInst_change hs (Inst.parkedOffer_open hopen)
  case offWait => exact runInst_change hs (Inst.offWaitOffer_waiting hrun hwaits)
  case noWait => exact runInst_change hs (Inst.offWaitOffer_open hopen)
  case retry => exact runInst_change hs (Inst.retryExpiry_requeued hretry hcoding hoffer)

end Sys2Proof.Machine
end

section
/-! PROOFS. Power states and start-up (R181, R318, R323 to R328, R334 to R338, R341): the way into DOZE and NAP, the way to OFF phase by
phase, and the phases of a start. -/

namespace Sys2Proof.Machine

/-! ### DOZE and NAP -/

section Sleep

variable {i : Inst}

/-- An idle ACTIVE `Inst` asks for DOZE where the policy lets it (R323, R324). -/
theorem Inst.dozeAfter_asks (hact : i.pw.state = .active) (hnone : i.pw.request = none) (hdeep : 1 ≤ i.deepest) (hidle : i.idle = true) :
    i.dozeAfter = { i with pw := { i.pw with request := some .doze }, out := i.out ++ [.powerRequest 1] } :=
  if_pos ⟨hact, hnone, hdeep, hidle⟩

/-- A busy one asks for nothing (R323). -/
theorem Inst.dozeAfter_busy (hbusy : i.idle = false) : i.dozeAfter = i :=
  if_neg fun ⟨_, _, _, hidle⟩ => ne_true_of_eq_false hbusy hidle

/-- A dozing `Inst` that neither enters nor wakes asks for NAP where the policy lets it (R324). -/
theorem Inst.napAfter_asks (hdoze : i.pw.state = .doze) (hnone : i.pw.request = none) (henter : i.pw.entering = none)
    (hwake : i.pw.waking = false) (hdeep : 2 ≤ i.deepest) :
    i.napAfter = { i with pw := { i.pw with request := some .nap }, out := i.out ++ [.powerRequest 2] } :=
  if_pos ⟨hdoze, hnone, henter, by simp [hwake], hdeep⟩

/-- Where the policy does not let it, none is asked for (R324). -/
theorem Inst.napAfter_shallow (hdeep : i.deepest < 2) : i.napAfter = i :=
  if_neg fun ⟨_, _, _, _, h⟩ => absurd h (Nat.not_le.mpr hdeep)

/-- A grant enters the state asked for, a denial ends the request (R322, R325). -/
theorem Inst.powerGrant_asked {p : PState} (hasked : i.pw.request = some p) :
    i.powerGrant true = { i.accountTime with pw := { i.accountTime.pw with state := p, request := none, entering := some p } } ∧
      i.powerGrant false = { i with pw := { i.pw with request := none } } := by
  simp only [Inst.powerGrant, hasked]
  exact ⟨rfl, rfl⟩

/-- An answer to no request changes nothing (R322). -/
theorem Inst.powerGrant_unasked (hnone : i.pw.request = none) (g : Bool) : i.powerGrant g = i := by
  simp only [Inst.powerGrant, hnone]

/-- At the end of the entry a wake asked for meanwhile begins (R325). -/
theorem Inst.entryDone_entering {p : PState} (henter : i.pw.entering = some p) :
    i.entryDone = Inst.count (if p = PState.nap then Cnt.napEntries else Cnt.dozeEntries) 1
      { i with pw := { i.pw with entering := none, waking := i.pw.wakeAfter, wakeAfter := false } } := by
  simp only [Inst.entryDone, henter]

/-- Where none is entered, no entry ends (R325). -/
theorem Inst.entryDone_idle (henter : i.pw.entering = none) : i.entryDone = i := by
  simp only [Inst.entryDone, henter]

end Sleep

/-- Settles O21: the requests for DOZE and NAP, the power manager's answers, and the end of an entry. -/
theorem sleepStates : Obligations.SleepStates := by
  intro s k hs i
  refine ⟨?doze, ?busy, ?nap, ?shallow, ?asked, ?unasked, ?entered, ?resting⟩
  case doze =>
    intro hact hnone hdeep hidle
    exact runInst_change hs (Inst.dozeAfter_asks hact hnone hdeep hidle)
  case busy =>
    intro hbusy
    exact runInst_change hs (Inst.dozeAfter_busy hbusy)
  case nap =>
    intro hdoze hnone henter hwake hdeep
    exact runInst_change hs (Inst.napAfter_asks hdoze hnone henter hwake hdeep)
  case shallow =>
    intro hdeep
    exact runInst_change hs (Inst.napAfter_shallow hdeep)
  case asked =>
    intro p hasked
    obtain ⟨hgrant, hdeny⟩ := Inst.powerGrant_asked hasked
    exact ⟨runInst_change hs hgrant, runInst_change hs hdeny⟩
  case unasked =>
    intro hnone g
    exact runInst_change hs (Inst.powerGrant_unasked hnone g)
  case entered =>
    intro p henter
    exact runInst_change hs (Inst.entryDone_entering henter)
  case resting =>
    intro henter
    exact runInst_change hs (Inst.entryDone_idle henter)

/-! ### The way to OFF -/

section Off

variable {i : Inst} {b : Bool}

/-- A request for OFF is judged at once by an `Inst` that is awake or faulted (R327). -/
theorem Inst.offRequest_judged (hawake : i.pw.state = .active ∨ i.pw.state = .faulted) : i.offRequest b = i.offJudge b := by
  obtain hact | hfault := hawake
  · simp only [Inst.offRequest, hact]
  · simp only [Inst.offRequest, hfault]

/-- A request that no check of R327 refuses begins the transition: the front end is answered, what waits is pumped (R276, R328). -/
theorem Inst.offJudge_begins (hcode : i.offCode b = 0) :
    i.offJudge b =
      (let j := (Inst.offResult 0 { i with pw := { i.pw with offFromReq := false } }).setPState .goingOff
       (Inst.refuseBuffered { j with pw := { j.pw with offPhase := .drain, request := none } }).pump) := by
  simp only [Inst.offJudge, hcode]
  rfl

/-- A request that one refuses is answered with its code (R327). -/
theorem Inst.offJudge_refused (hcode : i.offCode b ≠ 0) :
    i.offJudge b = Inst.offResult (i.offCode b) { i with pw := { i.pw with offFromReq := false } } :=
  if_pos hcode

/-- A sleeping `Inst` wakes first, the request waiting (R327). -/
theorem Inst.offRequest_asleep (hsleep : i.pw.state = .doze ∨ i.pw.state = .nap) :
    i.offRequest b = Inst.wakeUp { i with pw := { i.pw with offFromReq := true, offSpill := b } } := by
  obtain hdoze | hnap := hsleep
  · simp only [Inst.offRequest, hdoze]
  · simp only [Inst.offRequest, hnap]

variable (hgoing : i.pw.state = .goingOff)
include hgoing

/-- The drain ends when no completion and no backlog record is left (R328). -/
theorem Inst.offDrainDone_drained (hphase : i.pw.offPhase = .drain) (hdrained : i.drained = true) :
    i.offDrainDone = { i with pw := { i.pw with offPhase := .rollback } } :=
  if_pos ⟨hgoing, hphase, hdrained⟩

/-- A drain that is given up leaves the `Inst` ACTIVE (R327, R328). -/
theorem Inst.offDrain_givenUp (hphase : i.pw.offPhase = .drain) :
    i.offDrain =
      (let j := (i.offResult 6).setPState .active
       ({ j with pw := { j.pw with offPhase := .none, returnDue := false } } : Inst).pump) :=
  if_pos ⟨hgoing, hphase⟩

/-- The open steps are rolled back (R101, R328). -/
theorem Inst.offRollback_done (hphase : i.pw.offPhase = .rollback) :
    i.offRollback = { i.rollbackAll i.cod.opens with pw := { (i.rollbackAll i.cod.opens).pw with offPhase := .save } } :=
  if_pos ⟨hgoing, hphase⟩

/-- OFF is entered: the datapath and the SRAM are lost (R328, R331). -/
theorem Inst.offEntered_stays (hphase : i.pw.offPhase = .entering) (hreturn : i.pw.returnDue = false) :
    i.offEntered =
      (let j := (i.setPState .off).cleared true
       { j with pw := { j.pw with offPhase := .none, ready := false } }) := by
  have hoff : ((i.setPState .off).cleared true).pw.returnDue = false := hreturn
  simp only [Inst.offEntered, hgoing, hphase, hoff]
  rfl

/-- A return asked for meanwhile begins at once (R328, R342). -/
theorem Inst.offEntered_returns (hphase : i.pw.offPhase = .entering) (hreturn : i.pw.returnDue = true) :
    i.offEntered =
      (let j := (i.setPState .off).cleared true
       Inst.startReturn { j with pw := { j.pw with offPhase := .none, ready := false } }) := by
  have hoff : ((i.setPState .off).cleared true).pw.returnDue = true := hreturn
  simp only [Inst.offEntered, hgoing, hphase, hoff]
  rfl

end Off

/-- Settles O24: a request for OFF by the state it finds, then each phase of the transition (log entries 26 and 38). -/
theorem offTransition : Obligations.OffTransition := by
  intro s k hs i
  refine ⟨?awake, ?asleep, fun hgoing => ⟨?drained, ?givenUp, ?rollback, ?save, ?entered, ?returns⟩⟩
  case awake =>
    intro hawake b
    exact ⟨fun hcode => runInst_change hs ((Inst.offRequest_judged hawake).trans (Inst.offJudge_begins hcode)),
      fun hcode => runInst_change hs ((Inst.offRequest_judged hawake).trans (Inst.offJudge_refused hcode))⟩
  case asleep =>
    intro hsleep b
    exact runInst_change hs (Inst.offRequest_asleep hsleep)
  case drained =>
    intro hphase hdrained
    exact runInst_change hs (Inst.offDrainDone_drained hgoing hphase hdrained)
  case givenUp =>
    intro hphase
    exact runInst_change hs (Inst.offDrain_givenUp hgoing hphase)
  case rollback =>
    intro hphase
    exact runInst_change hs (Inst.offRollback_done hgoing hphase)
  case save =>
    intro hphase
    exact runInst_change hs (if_pos ⟨hgoing, hphase⟩)
  case entered =>
    intro hphase hreturn
    exact runInst_change hs (Inst.offEntered_stays hgoing hphase hreturn)
  case returns =>
    intro hphase hreturn
    exact runInst_change hs (Inst.offEntered_returns hgoing hphase hreturn)

/-! ### Start-up -/

section Start

variable {i : Inst} {f : FlashView} {m q p : Bytes}

/-- The `Inst` whose SRAM is cleared: it waits for its image, every buffer of its pool free (R318, R334). -/
def Inst.sramCleared (i : Inst) : Inst :=
  { i.accountTime with pw := { i.accountTime.pw with state := .starting, start := .image, resetType := none },
                       pool := i.pool.thread, mem := { i.mem with valid := [] } }

/-- A cleared SRAM threads the pool; a start that a reset led to logs the reset's kind (R318, R331, R334). -/
theorem Inst.sramClear_starts (hsram : i.pw.start = .sram) (hstate : i.pw.state = .starting ∨ i.pw.state = .resetting) :
    (∀ n, i.pw.resetType = some n → i.sramClear = i.sramCleared.event 0x1001 none [(20, 1, n)]) ∧
      (i.pw.resetType = none → i.sramClear = i.sramCleared) := by
  have hstarts : ¬ (i.pw.start ≠ .sram ∨ (i.pw.state ≠ .starting ∧ i.pw.state ≠ .resetting)) := by
    rintro (h | ⟨hstarting, hresetting⟩)
    · exact h hsram
    · exact hstate.elim hstarting hresetting
  refine ⟨fun n hkind => ?_, fun hkind => ?_⟩
  · simp only [Inst.sramClear, if_neg hstarts, hkind]; rfl
  · simp only [Inst.sramClear, if_neg hstarts, hkind]; rfl

section Boot

variable (hstate : i.pw.state = .starting) (hphase : i.pw.start = .image)
include hstate hphase

/-- An image delivered to a start is loaded where the boot rule finds a slot (R334, R337). -/
theorem Inst.imageDelivery_boots (hpick : (i.decideBoot f).2 = true) : i.imageDelivery f m q p = (i.decideBoot f).1.loadBoot m q p := by
  simp only [Inst.imageDelivery, hstate, hphase, hpick]
  rfl

/-- Where it finds none, none is loaded (R337). -/
theorem Inst.imageDelivery_noBoot (hpick : (i.decideBoot f).2 = false) : i.imageDelivery f m q p = (i.decideBoot f).1 := by
  simp only [Inst.imageDelivery, hstate, hphase, hpick]
  rfl

end Boot

/-- A new program section that meets its checks replaces the programs of a running `Inst` (R341). -/
theorem Inst.replacePrograms_running (hrun : i.pw.state = .active ∨ i.pw.state = .doze ∨ i.pw.state = .nap) :
    i.replacePrograms m p =
      (let r := i.offerPrograms (progHashOk m p && decide (manSeqSha m = i.boot.seqSha)) p
       if r.2 then { r.1 with boot := { r.1.boot with replaced := true } } else r.1) := by
  obtain h | h | h := hrun
  · simp only [Inst.replacePrograms, h]
  · simp only [Inst.replacePrograms, h]
  · simp only [Inst.replacePrograms, h]

end Start

/-- Settles O26: the lock of the PLL, then each command by the phase of the start or return it finds (log entry 101). -/
theorem startUp : Obligations.StartUp := by
  intro s k hs i
  refine ⟨?lock, ?cleared, ?boots, ?noBoot, ?returns, ?replaced⟩
  case lock =>
    exact runDie_all (fun d => { d with pll := true }) (fun i => if i.pw.start = .clock then { i with pw := { i.pw with start := .sram } } else i) hs
  case cleared =>
    intro hsram hstate
    obtain ⟨hreset, hcold⟩ := Inst.sramClear_starts hsram hstate
    refine runInst_change hs ?_
    change i.sramClear = _
    cases hkind : i.pw.resetType with
    | some n => exact hreset n hkind
    | none => exact hcold hkind
  case boots =>
    intro f m q p hstate hphase hpick
    exact runInst_change hs (Inst.imageDelivery_boots hstate hphase hpick)
  case noBoot =>
    intro f m q p hstate hphase hpick
    exact runInst_change hs (Inst.imageDelivery_noBoot hstate hphase hpick)
  case returns =>
    intro f m q p hstate hphase
    exact ⟨fun htaken => runInst_change hs (Inst.imageDelivery_return_taken hstate hphase htaken),
      fun hrefused => runInst_change hs (Inst.imageDelivery_return_refused hstate hphase hrefused)⟩
  case replaced =>
    intro m p hrun
    exact runInst_change hs (Inst.replacePrograms_running hrun)

end Sys2Proof.Machine
end

section
/-! PROOFS. The host commands that read host memory, and the cold tier (R182, R280 to R294, R308 to R311). -/

namespace Sys2Proof.Machine

/-! ### PARAM_LOAD and LOAD -/

section Load

variable {i : Inst} {d : Descr} {n c : Nat} {r : Running} {l : LoadChunk} {bytes : Bytes}

/-- The parameters a PARAM_LOAD brings: the first 32 words of what it read (R182, R287). -/
def paramWords (bytes : Bytes) : List Word := (piecesOf 4 (slice 0 128 bytes)).map (fun p => w32 (leNat p))

/-- A good block is installed where no layer waits for it, or the context is paused (R182). -/
theorem Inst.paramLoad_installs (hstart : i.startable 0x02 = some d) (hgood : paramsOk (paramWords bytes) = true)
    (hfree : i.takeCmd.opt.waits.contains (d.ctx, 3, bits d.arg 4 0) = false ∨ (i.takeCmd.ctx d.ctx).run.paused = true) :
    i.paramLoad (.data bytes) =
      (Inst.finishCmd d 0 0 1 { i.takeCmd with
        opt := { i.takeCmd.opt with params := i.takeCmd.opt.params.put (d.ctx * 32 + bits d.arg 4 0) (paramWords bytes) } }).pump := by
  unfold paramWords at hgood ⊢
  have hnotUsed : (i.takeCmd.opt.waits.contains (d.ctx, 3, bits d.arg 4 0) && !(i.takeCmd.ctx d.ctx).run.paused) = false := by
    obtain hfree | hpaused := hfree
    · rw [hfree, Bool.false_and]
    · rw [hpaused, Bool.not_true, Bool.and_false]
  simp only [Inst.paramLoad, hstart, hgood, hnotUsed, Bool.not_true, Bool.false_eq_true, if_false]

/-- A bad one is refused, and an event says so (R182). -/
theorem Inst.paramLoad_refuses (hstart : i.startable 0x02 = some d) (hbad : paramsOk (paramWords bytes) = false) :
    i.paramLoad (.data bytes) = (i.takeCmd.event 0x1904 (some d.ctx) [(20, 1, bits d.arg 4 0)]).refuseFree d := by
  unfold paramWords at hbad
  simp only [Inst.paramLoad, hstart, hbad, Bool.not_false, if_true]

/-- A LOAD from host memory starts with its chunks waiting, and every running one goes on (R280 to R284). -/
theorem Inst.loadHost_starts (hrun : i.running = true) (hstart : i.startable 0x03 = some d) (hhost : d.isCold = false) :
    i.loadHost =
      (let j := i.takeCmd.runCmd { Running.fresh d with chunks := i.loadChunks d }
       (((j.cmdq.running.filter (fun r => r.descr.op = 3 ∧ r.cold.isNone)).map (fun r => r.serial)).foldl
         (fun (i : Inst) n => i.advanceLoad n) j).pump) := by
  simp only [Inst.loadHost, hrun, hstart, hhost, Bool.not_true, Bool.false_eq_true, if_false]

/-- The end of the read of a chunk of a LOAD: its bytes are taken, or the error is noted, and the LOAD goes on (R284, R285, R287). -/
theorem Inst.pcieCompletion_reading (hrun : i.running = true) (hcmd : i.cmd n = some r) (hchunk : r.chunks[c]? = some l)
    (hphase : l.phase = .reading) (hhost : r.cold = none) :
    (∀ b, i.pcieCompletion n c (.data b) = ((i.loadBytes n l.id b).advanceLoad n).pump) ∧
      (∀ e, i.pcieCompletion n c (.error e) = (((i.hostReadError e l.addr).putCmd (r.note l.id 5)).advanceLoad n).pump) := by
  have hreads : (!i.running || decide (l.phase ≠ .reading) || r.cold.isSome) = false := by simp [hrun, hphase, hhost]
  refine ⟨fun b => ?_, fun e => ?_⟩
  · simp only [Inst.pcieCompletion, hcmd, hchunk, hreads, Bool.false_eq_true, if_false]
  · simp only [Inst.pcieCompletion, hcmd, hchunk, hreads, Bool.false_eq_true, if_false]

end Load

/-- Settles O33: PARAM_LOAD by its block, LOAD from host memory at its start and at the end of a read (log entry 9). -/
theorem hostLoads : Obligations.HostLoads := by
  intro s k hs i
  refine ⟨fun d bytes hstart => ⟨fun hgood hfree => ?installs, fun hbad => ?refuses⟩, fun d hrun hstart hhost => ?starts,
    fun n c r l hrun hcmd hchunk hphase hhost => ?reads⟩
  case installs => exact runInst_change hs (Inst.paramLoad_installs hstart hgood hfree)
  case refuses => exact runInst_change hs (Inst.paramLoad_refuses hstart hbad)
  case starts => exact runInst_change hs (Inst.loadHost_starts hrun hstart hhost)
  case reads =>
    obtain ⟨hdata, herror⟩ := Inst.pcieCompletion_reading hrun hcmd hchunk hphase hhost
    exact ⟨fun b => runInst_change hs (hdata b), fun e => runInst_change hs (herror e)⟩

/-! ### The cold tier -/

section Cold

variable {i : Inst} {d : Descr}

/-- A cold load that may use its context reads the header of the newest image of it (R288, R289, R293). -/
theorem Inst.coldLoad_starts {m : ColdImage} (hrun : i.running = true) (hstart : i.startable 0x03 = some d) (hcold : d.isCold = true)
    (hright : i.takeCmd.view.coldPriv.contains d.ctx = true) (husable : i.takeCmd.cold.usable = true)
    (himage : i.takeCmd.cold.images.find? (fun m => m.ctx = d.ctx) = some m) :
    i.coldLoad =
      (let n := i.takeCmd
       let c : ColdRun := { stage := .readHeader, seq := m.seq, step := m.step, chunks := m.chunks, zones := m.zones, pieces := [], next := 0,
                            crc := 0, index := [] }
       let j := (n.runCmd { Running.fresh d with serial := n.cmdq.next, chunks := n.loadChunks d, cold := some c }).readBlocks n.cmdq.next m.zones 0 1
       (((j.cmdq.running.filter Running.readsChunks).map (fun r => r.serial)).foldl (fun (i : Inst) n => i.advanceCold n) j).pump) := by
  simp only [Inst.coldLoad, hrun, hstart, hcold, hright, husable, himage, Bool.not_true, Bool.false_eq_true, if_false]

/-- A cold write whose zones are there gathers its chunks (R291, R292). -/
theorem Inst.coldWrite_gathers (hrun : i.running = true) (hstart : i.startable 0x06 = some d) (htable : i.takeCmd.cold.tableSeq ≠ 0)
    (hcode : (i.takeCmd.coldWriteCode d).1 = 0) :
    i.coldWrite =
      (let start : ColdRun := { stage := .gather, seq := 0, step := 0, chunks := 0, zones := [], pieces := [], next := 0, crc := 0, index := [] }
       let r : Running := { Running.fresh d with serial := i.takeCmd.cmdq.next, cold := some start }
       ((i.takeCmd.runCmd r).gatherCold r).pump) := by
  simp only [Inst.coldWrite, hrun, hstart, if_neg htable, hcode, Bool.not_true, Bool.false_eq_true, if_false, ne_eq, not_true_eq_false]

/-- The `Inst` once the drive has answered the command at the front: the others stay outstanding (R288). -/
def Inst.answeredNvme (rest : List NvCmd) (i : Inst) : Inst := { i with cold := { i.cold with nvme := rest } }

section Drive

variable {n : NvCmd} {rest : List NvCmd} {r : Running} {c : ColdRun} {b : Bytes}
  (hfront : i.cold.nvme = n :: rest) (howner : n.owner.bind (Inst.cmd (i.answeredNvme rest)) = some r) (hcold : r.cold = some c)
include hfront howner hcold

/-- A completion of a COLD_WRITE: the write takes a step where the command at the front was the last of its stage, or it fails (R291,
R292). -/
theorem Inst.nvmeCompletion_write (hop : r.descr.op = 6) :
    i.nvmeCompletion true b = (if n.last then (i.answeredNvme rest).writeStep r c else i.answeredNvme rest).pump ∧
      i.nvmeCompletion false b = ((i.answeredNvme rest).writeFailed r c).pump := by
  unfold Inst.answeredNvme at howner ⊢
  constructor
  · simp only [Inst.nvmeCompletion, hfront, howner, hcold, hop]
  · simp only [Inst.nvmeCompletion, hfront, howner, hcold, hop]

/-- A completion of a cold load: its bytes are taken, or the read failed (R285, R293). -/
theorem Inst.nvmeCompletion_read (hop : r.descr.op ≠ 6) :
    i.nvmeCompletion true b = ((i.answeredNvme rest).readStep r c b).pump ∧
      i.nvmeCompletion false b = ((i.answeredNvme rest).readFailed r c).pump := by
  unfold Inst.answeredNvme at howner ⊢
  constructor
  · simp only [Inst.nvmeCompletion, hfront, howner, hcold]
  · simp only [Inst.nvmeCompletion, hfront, howner, hcold]

end Drive

/-- A completion where no command is outstanding changes nothing (R288). -/
theorem Inst.nvmeCompletion_none (hnone : i.cold.nvme = []) (ok : Bool) (b : Bytes) : i.nvmeCompletion ok b = i := by
  simp only [Inst.nvmeCompletion, hnone]

end Cold

/-- Settles O35: the start of a cold load and of a cold write, and the drive's completions by the command at the front (log entry 94). -/
theorem coldTier : Obligations.ColdTier := by
  intro s k hs i
  refine ⟨?load, ?write, fun n rest r c hfront howner hcold => ?drive, ?none⟩
  case load =>
    intro d m hrun hstart hcold hright husable himage
    exact runInst_change hs (Inst.coldLoad_starts hrun hstart hcold hright husable himage)
  case write =>
    intro d hrun hstart htable hcode
    exact runInst_change hs (Inst.coldWrite_gathers hrun hstart htable hcode)
  case drive =>
    refine ⟨fun b hop hlast => ?_, fun b hop hlast => ?_, fun b hop => ?_, fun b hop => ?_, fun b hop => ?_⟩
    · exact runInst_change hs ((Inst.nvmeCompletion_write hfront howner hcold hop).1.trans (congrArg Inst.pump (if_pos hlast)))
    · exact runInst_change hs ((Inst.nvmeCompletion_write hfront howner hcold hop).1.trans
        (congrArg Inst.pump (if_neg (ne_true_of_eq_false hlast))))
    · exact runInst_change hs (Inst.nvmeCompletion_write (b := b) hfront howner hcold hop).2
    · exact runInst_change hs (Inst.nvmeCompletion_read hfront howner hcold hop).1
    · exact runInst_change hs (Inst.nvmeCompletion_read (b := b) hfront howner hcold hop).2
  case none =>
    intro hnone ok b
    exact runInst_change hs (Inst.nvmeCompletion_none hnone ok b)

end Sys2Proof.Machine
end

section
/-! PROOFS. Register writes at an `Inst` (R302, R308, R309, R313, R316 to R320, R359, R360, R389, R393 to R397): the selectors, the buffer
pool, the mailboxes, the command queue and the tails of the event ring. -/

namespace Sys2Proof.Machine

/-- Settles O36: each selector stores the masked value and latches from the `Inst` as it is seen (log entry 118). -/
theorem selectorsLatch : Obligations.SelectorsLatch := by
  intro init k w s b at_
  refine ⟨(regWrite_serve rfl · rfl), (regWrite_serve rfl · rfl), (regWrite_serve rfl · rfl), (regWrite_serve rfl · rfl),
    (regWrite_serve rfl · rfl), (regWrite_serve rfl · rfl), (regWrite_serve rfl · rfl), (regWrite_serve rfl · rfl),
    (regWrite_serve rfl · rfl), (regWrite_serve rfl · rfl), (regWrite_serve rfl · rfl), (regWrite_serve rfl · rfl),
    (regWrite_serve rfl · rfl), (regWrite_serve rfl · rfl)⟩

/-! ### The buffer pool -/

section Pool

variable {i : Inst} {b n x : Nat} {w : Word} {e : BufEntry}

/-- An allocation takes the free buffer at the head of the list (R317, R320; log entry 117). -/
theorem Inst.allocReq_takes {rest : List Nat} (hfree : i.pool.free = n :: rest) (hthread : i.pool.threaded = true)
    (hbuilt : i.pool.rebuilding = false) (hheld : i.initHeld b < 8) (hleft : i.freeBuffers ≠ 0) (hroom : i.shareRoom 5 65536 = true) :
    i.allocReq b =
      (let e : BufEntry := { share := 5, lentFrom := i.lender 5, ctx := none, owners := [.init b], deferred := [] }
       { i with pool := { i.pool with free := rest, result := i.pool.result.put b (2 ^ 31 + n), owned := i.pool.owned.put n e } }) := by
  have hgranted : (!i.pool.threaded || i.pool.rebuilding || decide (8 ≤ i.initHeld b) || decide (i.freeBuffers = 0) || !i.shareRoom 5 65536) =
      false := by
    simp [hthread, hbuilt, hheld, hleft, hroom]
  simp only [Inst.allocReq, hfree, hgranted, Bool.false_eq_true, if_false]

/-- Without a free buffer, or where the initiator or the share has its number, it fails (R317, R320). -/
theorem Inst.allocReq_fails (hfail : i.pool.free = [] ∨ i.pool.threaded = false ∨ i.pool.rebuilding = true ∨ 8 ≤ i.initHeld b ∨
      i.freeBuffers = 0 ∨ i.shareRoom 5 65536 = false) :
    i.allocReq b = Inst.count (Cnt.poolFail + 5) 1 { i with pool := { i.pool with result := i.pool.result.put b 0 } } := by
  cases hfree : i.pool.free with
  | nil => simp only [Inst.allocReq, hfree]; rfl
  | cons n rest =>
    have hrefused : (!i.pool.threaded || i.pool.rebuilding || decide (8 ≤ i.initHeld b) || decide (i.freeBuffers = 0) ||
        !i.shareRoom 5 65536) = true := by
      simpa [hfree, or_assoc] using hfail
    simp only [Inst.allocReq, hfree, hrefused, if_true]; rfl

section Owned

variable (hentry : i.pool.owned.find (w.toNat % 512) = some e) (howner : e.owners.contains (.init b) = true)
include hentry howner

/-- A release that no job of the initiator holds back gives up its ownership (R319). -/
theorem Inst.releaseBuffer_clears (hunnamed : i.jobNames b (w.toNat % 512) = false) :
    i.releaseBuffer b w = { i with pool := i.pool.clearOwner (w.toNat % 512) (.init b) } := by
  simp only [Inst.releaseBuffer, hentry, howner, hunnamed, Bool.not_true, Bool.false_eq_true, if_false]

/-- The last owner frees the buffer, to the head of the list (R319). -/
theorem Inst.releaseBuffer_last (hunnamed : i.jobNames b (w.toNat % 512) = false) (hlast : e.owners.filter (· ≠ .init b) = []) :
    i.releaseBuffer b w =
      { i with pool := { i.pool with owned := i.pool.owned.del (w.toNat % 512), free := w.toNat % 512 :: i.pool.free } } := by
  rw [Inst.releaseBuffer_clears hentry howner hunnamed]
  simp only [Pool.clearOwner, hentry, hlast]
  rfl

/-- Another owner keeps it (R319). -/
theorem Inst.releaseBuffer_shared (hunnamed : i.jobNames b (w.toNat % 512) = false) (hshared : e.owners.filter (· ≠ .init b) ≠ []) :
    i.releaseBuffer b w =
      (let e2 : BufEntry := { e with owners := e.owners.filter (· ≠ .init b), deferred := e.deferred.filter (· ≠ .init b) }
       { i with pool := { i.pool with owned := i.pool.owned.put (w.toNat % 512) e2 } }) := by
  rw [Inst.releaseBuffer_clears hentry howner hunnamed]
  simp only [Pool.clearOwner, hentry, List.isEmpty_iff, if_neg hshared]

/-- A job of the initiator that names the buffer puts the release off (R389). -/
theorem Inst.releaseBuffer_deferred (hnamed : i.jobNames b (w.toNat % 512) = true) :
    i.releaseBuffer b w =
      (let e2 : BufEntry := { e with deferred := e.deferred.filter (· ≠ .init b) ++ [.init b] }
       { i with pool := { i.pool with owned := i.pool.owned.put (w.toNat % 512) e2 } }) := by
  simp only [Inst.releaseBuffer, hentry, howner, hnamed, Bool.not_true, Bool.false_eq_true, if_false, if_true]

end Owned

/-- A release of a buffer that nobody owns is counted and logged (R320). -/
theorem Inst.releaseBuffer_free (hentry : i.pool.owned.find (w.toNat % 512) = none) :
    i.releaseBuffer b w = (i.count Cnt.poolBadRelease 1).eventBy 0x1E04 0x1E none b [(20, 2, w.toNat % 512)] := by
  simp only [Inst.releaseBuffer, hentry]

/-- Sizes that meet R394 while no context and no share but the commands' holds a buffer are applied. -/
theorem Inst.sizeApply_applies (hgood : sizesBad i.pendingSizes i.minSum = 0)
    (hfree : i.ctxs.any (fun c => decide (c.2.map.state ≠ 0)) = false)
    (hunused : ([0, 1, 2, 3, 4] : List Nat).any (fun s => decide (i.shareUsed s ≠ 0)) = false) :
    i.sizeApply b = { i with pool := { i.pool with active := i.pendingSizes } } := by
  refine if_neg ?_
  rw [hfree, hunused]
  simp [hgood]

/-- Sizes that break a condition are logged with the shares that do (R394; log entry 116). -/
theorem Inst.sizeApply_refuses (hbad : sizesBad i.pendingSizes i.minSum ≠ 0) :
    i.sizeApply b = i.eventBy 0x1E03 0x1E none b [(24, 4, sizesBad i.pendingSizes i.minSum)] :=
  if_pos (.inl hbad)

/-- A minimum of at most 32 that keeps the sum within 192 is set (R316, R393). -/
theorem Inst.setCtxMin_fits (hmax : w.toNat % 64 ≤ 32) (hsum : i.minSum - (i.ctx x).run.poolMin + w.toNat % 64 ≤ 192) :
    i.setCtxMin b x w = i.modRun x (fun r => { r with poolMin := w.toNat % 64 }) :=
  (if_neg (Nat.not_lt.mpr hmax)).trans (if_neg (Nat.not_lt.mpr hsum))

end Pool

/-- Settles O38: each write by what its register makes of the pool (log entries 116 and 117). -/
theorem poolCommands : Obligations.PoolCommands := by
  intro init k w s i b x
  refine ⟨?takes, ?fails, ?release, ?applies, ?refuses, ?minimum⟩
  case takes =>
    intro h n rest hfree hthread hbuilt hheld hleft hroom
    exact regWrite_done rfl h rfl (Inst.allocReq_takes hfree hthread hbuilt hheld hleft hroom)
  case fails =>
    intro h hfail
    exact regWrite_done rfl h rfl (Inst.allocReq_fails hfail)
  case release =>
    intro h n
    refine ⟨fun e hentry howner hunnamed => ⟨fun hlast => ?_, fun hshared => ?_⟩, fun e hentry howner hnamed => ?_, fun hentry => ?_⟩
    · exact regWrite_done rfl h rfl (Inst.releaseBuffer_last hentry howner hunnamed hlast)
    · exact regWrite_done rfl h rfl (Inst.releaseBuffer_shared hentry howner hunnamed hshared)
    · exact regWrite_done rfl h rfl (Inst.releaseBuffer_deferred hentry howner hnamed)
    · exact regWrite_done rfl h rfl (Inst.releaseBuffer_free hentry)
  case applies =>
    intro h hgood hfree hunused
    exact regWrite_done rfl h rfl (Inst.sizeApply_applies hgood hfree hunused)
  case refuses =>
    intro h hbad
    exact regWrite_done rfl h rfl (Inst.sizeApply_refuses hbad)
  case minimum =>
    intro h v hmax hsum
    exact regWrite_done rfl h rfl (Inst.setCtxMin_fits hmax hsum)

/-! ### Mailboxes -/

section Mail

variable {init : Initiator} {i : Inst} {w : Word} {n m : Nat}

/-- A message is placed whole at the tail of a box of fewer than four, with its stamp (R313, R396). -/
theorem Inst.mboxSend_places (hform : w.toNat = bits w.toNat 2 0 + 2 ^ 8 * bits w.toNat 11 8) (hmin : 1 ≤ bits w.toNat 11 8)
    (hmax : bits w.toNat 11 8 ≤ 8) (hm : m = bits w.toNat 2 0 + (if Initiator.bank init = 2 then 8 else 0)) (hroom : (i.box m).length < 4) :
    i.mboxSend init w =
      (let b := Initiator.bank init
       let n := bits w.toNat 11 8
       let q := i.mbox.seqs.getD 0 m
       let ws := (List.range n).map (fun k => i.ctl.stored b 0x1F (0x100 + 4 * k))
       let stamp := w32 (2 ^ 24 * q + 2 ^ 20 * n + (if b = 2 then 2 ^ 8 * i.view.idx else 0) + b)
       ({ i with mbox := { boxes := i.mbox.boxes.put m (i.box m ++ [{ words := ws, stamp := stamp }]),
                           seqs := i.mbox.seqs.put m ((q + 1) % 256) } }, .done)) := by
  subst hm
  refine if_neg ?_
  rintro (hbad | hzero | hlong | hfull)
  · exact hbad hform
  · omega
  · omega
  · omega

/-- A full box ends the write in a bus error (R313). -/
theorem Inst.mboxSend_full (hm : m = bits w.toNat 2 0 + (if Initiator.bank init = 2 then 8 else 0)) (hfull : 4 ≤ (i.box m).length) :
    i.mboxSend init w = (i, .error) := by
  subst hm
  exact if_pos (.inr (.inr (.inr hfull)))

section Pop

variable (hmay : mayPop (Initiator.bank init) w.toNat = true)
include hmay

/-- A pop by the box's reader takes the head (R313). -/
theorem Inst.mboxPop_takes {h : Msg} {t : List Msg} (hbox : i.box (bits w.toNat 2 0 + 8 * bits w.toNat 8 8) = h :: t) :
    i.mboxPop init w =
      ({ i with mbox := { i.mbox with boxes := i.mbox.boxes.put (bits w.toNat 2 0 + 8 * bits w.toNat 8 8) t } }, .done) := by
  simp only [Inst.mboxPop, hmay, hbox, Bool.not_true, Bool.false_eq_true, if_false]

/-- A pop of an empty box is logged (R396). -/
theorem Inst.mboxPop_empty (hbox : i.box (bits w.toNat 2 0 + 8 * bits w.toNat 8 8) = []) :
    i.mboxPop init w = (i.popRefused (Initiator.bank init) w 0, .done) := by
  simp only [Inst.mboxPop, hmay, hbox, Bool.not_true, Bool.false_eq_true, if_false]

end Pop

/-- A taken write of SEND reaches the mailboxes as it was written (R359, R396). -/
theorem regWrite_mboxSend {k : InstId} {s : State} {g : Inst → Inst × BusRes} (htaken : s.takes init k 0x1F 0x120 w)
    (hsend : (s.seen k).mboxSend init w = g (s.seen k)) : regWrite init 0x1F 0x120 w s = .next (s.serve k true g) := by
  rw [regWrite_inst htaken rfl rfl rfl rfl rfl (by decide) (by decide)]
  exact congrArg _ (State.serve_congr hsend)

end Mail

/-- Settles O39: SEND by the room of its box, POP by the rights of its initiator and what the box holds. -/
theorem mailboxes : Obligations.Mailboxes := by
  intro init k w s i b
  refine ⟨?send, ?pop⟩
  case send =>
    intro h n m hform hmin hmax
    exact ⟨fun hroom => regWrite_mboxSend h (Inst.mboxSend_places hform hmin hmax rfl hroom),
      fun hfull => regWrite_mboxSend h (Inst.mboxSend_full rfl hfull)⟩
  case pop =>
    intro h v m hmay
    exact ⟨fun head t hbox => regWrite_serve rfl h (Inst.mboxPop_takes hmay hbox),
      fun hbox => regWrite_serve rfl h (Inst.mboxPop_empty hmay hbox)⟩

/-! ### The command queue and the tails -/

section Queue

variable {i : Inst} {b : Nat} {w : Word} {o : List Word} {q : CmdQ}

/-- The words an initiator has pushed of a descriptor not yet whole (R308). -/
def Inst.openWords (b : Nat) (i : Inst) : List Word := (i.cmdq.asm.find b).getD []

/-- The queue once a new descriptor has cut off the one its initiator left open (R308). -/
def Inst.cutQueue (b : Nat) (i : Inst) : CmdQ := ({ i.cmdq with asm := i.cmdq.asm.del b } : CmdQ).orphan b (i.openWords b).length

/-- The word that begins a descriptor cuts off an open one; it is taken where the queue has room for a descriptor, else the push ends in
a bus error (R308, R309). -/
theorem Inst.cmdqPush_begins (hfirst : w.getLsbD 31 = true) :
    (8 ≤ (i.cutQueue b).free → i.cmdqPush b w = (Inst.pushInto b [w] { i with cmdq := i.cutQueue b }, true)) ∧
      ((i.cutQueue b).free < 8 → i.cmdqPush b w = (Inst.count Cnt.cmdqFull 1 { i with cmdq := i.cutQueue b }, false)) := by
  have hpush : i.cmdqPush b w = (if (i.cutQueue b).free < 8 then (Inst.count Cnt.cmdqFull 1 { i with cmdq := i.cutQueue b }, false)
      else (Inst.pushInto b [w] { i with cmdq := i.cutQueue b }, true)) := if_pos hfirst
  exact ⟨fun hroom => hpush.trans (if_neg (Nat.not_lt.mpr hroom)), fun hfull => hpush.trans (if_pos hfull)⟩

/-- A word that continues no descriptor is an orphan (R308). -/
theorem Inst.cmdqPush_orphan (hnext : w.getLsbD 31 = false) (hopen : i.openWords b = []) :
    i.cmdqPush b w = ({ i with cmdq := i.cmdq.orphan b 1 }, true) :=
  (if_neg (ne_true_of_eq_false hnext)).trans (if_pos (List.isEmpty_iff.mpr hopen))

/-- One that continues an open descriptor joins it (R308). -/
theorem Inst.cmdqPush_continues (hnext : w.getLsbD 31 = false) (hopen : i.openWords b ≠ []) :
    i.cmdqPush b w = (i.pushInto b (i.openWords b ++ [w]), true) :=
  (if_neg (ne_true_of_eq_false hnext)).trans (if_neg (mt List.isEmpty_iff.mp hopen))

end Queue

section Tails

variable {i : Inst} {b : Nat} {w : Word}

/-- A tail that stays within what has been written is taken (R302). -/
theorem Inst.setTail_within {isM : Bool} {r : Ring} (hr : r = i.ctl.logs.ring)
    (hread : (w.toNat % 1024 + 1024 - (if isM then r.mtail else r.htail)) % 1024 ≤ (r.head + 1024 - (if isM then r.mtail else r.htail)) % 1024) :
    i.setTail isM b w = { i with ctl := { i.ctl with logs := { i.ctl.logs with
      ring := if isM then { r with mtail := w.toNat % 1024 } else { r with htail := w.toNat % 1024 } } } } := by
  subst hr
  have htaken : i.ctl.logs.ring.setTail 1024 isM (w.toNat % 1024) =
      (if isM then { i.ctl.logs.ring with mtail := w.toNat % 1024 } else { i.ctl.logs.ring with htail := w.toNat % 1024 }, true) :=
    if_pos ⟨hread, Nat.mod_lt _ (by decide)⟩
  simp only [Inst.setTail, htaken]
  rfl

/-- One beyond it leaves the ring and is logged (R302). -/
theorem Inst.setTail_beyond {isM : Bool} {r : Ring} (hr : r = i.ctl.logs.ring)
    (hbeyond : (r.head + 1024 - (if isM then r.mtail else r.htail)) % 1024 < (w.toNat % 1024 + 1024 - (if isM then r.mtail else r.htail)) % 1024) :
    i.setTail isM b w = i.eventBy 0xFF03 0x10 none b [(20, 4, w.toNat % 1024)] := by
  subst hr
  have hrefused : i.ctl.logs.ring.setTail 1024 isM (w.toNat % 1024) = (i.ctl.logs.ring, false) :=
    if_neg fun h => absurd h.1 (Nat.not_le.mpr hbeyond)
  simp only [Inst.setTail, hrefused]
  rfl

end Tails

section Bus

variable {init : Initiator} {k : InstId} {s : State} {w : Word} {page off addr bytes : Nat}

/-- Every register at an offset of 0x100 and above is plain but SEND, which sees the value before its mask (R297, R359). -/
theorem plainReg_listed (hpage : instPage page = true) (hsmall : off < 0x1000) (haligned : off % 4 = 0) (hlisted : 0x100 ≤ off)
    (hsend : ¬ (page = 0x1F ∧ off = 0x120)) : plainReg page off = true := by
  have hheader : off ∉ [0x010, 0x01C, 0x020, 0x024, 0x028] := by
    simp only [List.mem_cons, List.not_mem_nil, or_false]
    omega
  have htest : ¬ (page = 0x1C ∧ off = 0x018) := by omega
  simpa [plainReg, hpage, hsmall, haligned, hheader] using ⟨not_and_or.mp htest, not_and_or.mp hsend⟩

/-- A taken push answers by whether the queue took the word, and what waits is pumped (R308). -/
theorem regWrite_cmdqPush {f : Inst → Inst} {ok : Bool} (htaken : s.takes init k 0x10 0x120 w)
    (hpush : (s.seen k).cmdqPush (Initiator.bank init) (masked 0x10 0x120 w) = (f (s.seen k), ok)) :
    regWrite init 0x10 0x120 w s = .next (s.serve k true (fun i => ((f i).pump, if ok then .done else .error))) :=
  regWrite_serve rfl htaken (congrArg (fun r : Inst × Bool => (r.1.pump, if r.2 then BusRes.done else .error)) hpush)

/-- An access that is not of one aligned word ends in a bus error (R295, R296). -/
theorem execRegisterWrite_error (hbus : s.busTo init k) (hbad : bytes ≠ 4 ∨ addr % 4 ≠ 0) :
    execRegisterWrite init addr bytes w s = .next (s.reply true .error) := by
  obtain ⟨hs, hfree, -, -⟩ := hbus
  rw [execRegisterWrite, runDie_on hs]
  simp only [busAccess, hfree, busRun, if_pos hbad]
  rfl

end Bus

/-- Settles O41: the push by its first bit and the room of the queue, each tail by what has been written, and any other register by its
page (log entry 46). -/
theorem queueAndTails : Obligations.QueueAndTails := by
  intro init k w s i b
  refine ⟨?push, ?mtail, ?htail, ?other, (regWrite_serve rfl · rfl), fun addr bytes => execRegisterWrite_error⟩
  case push =>
    intro h v o
    refine ⟨fun hfirst => ⟨fun hroom => ?_, fun hfull => ?_⟩, fun hnext hopen => ?_, fun hnext hopen => ?_⟩
    · exact regWrite_cmdqPush (ok := true) h ((Inst.cmdqPush_begins hfirst).1 hroom)
    · exact regWrite_cmdqPush (ok := false) h ((Inst.cmdqPush_begins hfirst).2 hfull)
    · exact regWrite_cmdqPush (ok := true) h (Inst.cmdqPush_orphan hnext hopen)
    · exact regWrite_cmdqPush (ok := true) h (Inst.cmdqPush_continues hnext hopen)
  case mtail =>
    intro h v r
    exact ⟨fun hread => regWrite_done rfl h rfl (Inst.setTail_within (isM := true) rfl hread),
      fun hbeyond => regWrite_done rfl h rfl (Inst.setTail_beyond (isM := true) rfl hbeyond)⟩
  case htail =>
    intro h v r
    exact ⟨fun hread => regWrite_done rfl h rfl (Inst.setTail_within (isM := false) rfl hread),
      fun hbeyond => regWrite_done rfl h rfl (Inst.setTail_beyond (isM := false) rfl hbeyond)⟩
  case other =>
    intro page off h hpage hsmall haligned hlisted hsend
    exact regWrite_serve (plainReg_listed hpage hsmall haligned hlisted hsend) h rfl

end Sys2Proof.Machine
end

section
/-! PROOFS. Guard sequences, context commands and LOCK bits (R297, R303 to R307, R355, R363, R383, R404). -/

namespace Sys2Proof.Machine

section PageHeader

variable {init : Initiator} {k : InstId} {page off : Nat} {w : Word} {s : State}

/-- A page of an `Inst` is no die-wide page (R295). -/
theorem diePage_eq_false (hpage : instPage page = true) : diePage page = false := by
  simp only [instPage, Bool.and_eq_true, decide_eq_true_eq] at hpage
  obtain ⟨hrange, -⟩ := hpage
  exact decide_eq_false (by omega)

/-- The address of a register names its page and its offset. -/
theorem regKey_parts (hsmall : off < 0x1000) (haligned : off % 4 = 0) :
    regKey page off / 0x1000 = page ∧ regKey page off % 0x1000 = off ∧ regKey page off % 4 = 0 := by
  refine ⟨?_, ?_, ?_⟩
  all_goals simp only [regKey]; omega

/-- A write of the header of a page of an ACTIVE `Inst` that its initiator may make does what `writeReg` makes of the `Inst` as it is
seen (R297). -/
theorem regWrite_pageHeader {g : Inst → Inst × BusRes} (hbus : s.busTo init k) (hallowed : allowed init s.die.testLock page off true = true)
    (hpage : instPage page = true) (hsmall : off < 0x1000) (haligned : off % 4 = 0)
    (heffect : (s.seen k).writeReg init (s.die.ctxSel init) page off w = g (s.seen k)) :
    regWrite init page off w s = .next (s.serve k true g) := by
  obtain ⟨hdiv, hmod, hword⟩ := regKey_parts (page := page) hsmall haligned
  rw [regWrite_header hbus hallowed hpage (diePage_eq_false hpage) hdiv hmod hword]
  exact congrArg _ (State.serve_congr heffect)

end PageHeader

/-! ### Guard sequences at a page of an `Inst` -/

section Sequences

variable {init : Initiator} {k : InstId} {page n x : Nat} {v w : Word} {s : State} {i : Inst} {g : Guard}

/-- A sequence left open is discarded with the reason of a timeout (R303). -/
theorem Inst.guardTimeout_open (hopen : (i.ctl.guard (Initiator.bank init) page).valueA = some v) :
    i.guardTimeout init x page =
      (i.ctlMap (CtlSt.guardEnd (Initiator.bank init) page)).guardFault (Initiator.bank init) x page
        (i.ctl.guard (Initiator.bank init) page).target 1 v := by
  simp only [Inst.guardTimeout, hopen]

/-- Where none is open, there is none to discard (R303). -/
theorem Inst.guardTimeout_closed (hclosed : (i.ctl.guard (Initiator.bank init) page).valueA = none) : i.guardTimeout init x page = i := by
  simp only [Inst.guardTimeout, hclosed]

/-- The timeout on a page of an `Inst` of a running die makes any change that agrees with its own on the `Inst` as it is seen. -/
theorem execGuardTimeout_inst {f : Inst → Inst} (hs : s.supply = .on) (hpage : instPage page = true) (hk : instNo n = k)
    (h : (s.seen k).guardTimeout init (s.die.ctxSel init) page = f (s.seen k)) :
    execGuardTimeout init page n s = .next (s.change k f) := by
  subst hk
  rw [execGuardTimeout, runDie_on hs]
  simp only [diePage_eq_false hpage, Bool.false_eq_true, if_false, State.change, ← h]
  rfl

/-- The reasons a GUARD_B may fault for, in the order in which they are judged (R303, R383; log entry 112): no GUARD_A, the time, the
complement, the register. -/
theorem Guard.fault_noValue {now : Nat} (hnone : g.valueA = none) : g.fault page now w = some 2 := by
  simp only [Guard.fault, hnone]

section Opened

variable {now : Nat} (hvalue : g.valueA = some v)
include hvalue

theorem Guard.fault_late (hlate : g.timeA + 64 < now) : g.fault page now w = some 1 := by
  simp only [Guard.fault, hvalue, if_pos hlate]

theorem Guard.fault_mismatch (htime : now ≤ g.timeA + 64) (hw : w ≠ ~~~v) : g.fault page now w = some 0 := by
  simp only [Guard.fault, hvalue, if_neg (Nat.not_lt.mpr htime), if_pos hw]

theorem Guard.fault_unguarded (htime : now ≤ g.timeA + 64) (hw : w = ~~~v) (hplain : guarded page g.target = false) :
    g.fault page now w = some 3 := by
  simp [Guard.fault, hvalue, Nat.not_lt.mpr htime, hw, hplain]

end Opened

/-- GUARD_B of a sequence that is wrong ends it and faults with the reason, and does nothing else (R303). -/
theorem regWrite_guardB_faults {r : Nat} (hbus : s.busTo init k) (hpage : instPage page = true)
    (hg : (s.seen k).ctl.guard (Initiator.bank init) page = g) (hfault : g.fault page s.die.time w = some r) :
    regWrite init page 0x024 w s = .next (s.serve k true (fun i =>
      ((i.ctlMap (CtlSt.setGuard (Initiator.bank init) page { g with valueA := none })).guardFault (Initiator.bank init) (s.die.ctxSel init) page
        g.target r (g.valueA.getD w), .done))) := by
  subst hg
  have hseen : ((s.seen k).ctl.guard (Initiator.bank init) page).fault page (s.seen k).view.time w = some r := hfault
  rw [regWrite_guardB hbus hpage]
  refine congrArg _ (State.serve_congr ?_)
  simp only [Inst.guardB, hseen]
  rfl

end Sequences

/-- Settles O43: the writes of GUARD_TARGET and GUARD_A, and the timeout by whether a sequence is open. -/
theorem guardSequences : Obligations.GuardSequences := by
  intro init k page n w s hpage b i
  refine ⟨fun hbus => ?target, fun hbus => ?value, fun hs hk => ⟨fun v hopen => ?timeout, fun hclosed => ?closed⟩⟩
  case target => exact regWrite_pageHeader hbus rfl hpage (by decide) rfl rfl
  case value => exact regWrite_pageHeader hbus rfl hpage (by decide) rfl rfl
  case timeout => exact execGuardTimeout_inst hs hpage hk (Inst.guardTimeout_open hopen)
  case closed => exact execGuardTimeout_inst hs hpage hk (Inst.guardTimeout_closed hclosed)

/-- Settles O44: GUARD_B by what is wrong with its sequence (log entry 112). -/
theorem guardFaults : Obligations.GuardFaults := by
  intro init k w s hbus b g fault
  refine ⟨fun hnone => ?none, fun v hvalue => ⟨fun hlate => ?late, fun htime hw => ?mismatch, fun htime hw hplain => ?unguarded⟩⟩
  case none =>
    have hexec := regWrite_guardB_faults (page := 0x10) hbus rfl rfl (Guard.fault_noValue (w := w) hnone)
    rwa [show g.valueA.getD w = w by rw [hnone]; rfl] at hexec
  all_goals have hlogged : g.valueA.getD w = v := by rw [hvalue]; rfl
  case late =>
    have hexec := regWrite_guardB_faults (page := 0x10) hbus rfl rfl (Guard.fault_late (w := w) hvalue hlate)
    rwa [hlogged] at hexec
  case mismatch =>
    have hexec := regWrite_guardB_faults (page := 0x10) hbus rfl rfl (Guard.fault_mismatch hvalue htime hw)
    rwa [hlogged] at hexec
  case unguarded =>
    have hexec := regWrite_guardB_faults (page := 0x10) hbus rfl rfl (Guard.fault_unguarded hvalue htime hw hplain)
    rwa [hlogged] at hexec

/-! ### Context commands -/

/-- A context command that its sequence lets through opens a precedence window or joins the open one (R305, R306). -/
theorem regWrite_command {init : Initiator} {k : InstId} {v w : Word} {s : State} (hcmd : cmdOk v = true)
    (hopens : s.opens init k 0x12 0x100 v) (hw : w = ~~~v) :
    regWrite init 0x12 0x024 w s = .next (s.serve k true (fun i =>
      ((i.ctlMap (CtlSt.guardEnd (Initiator.bank init) 0x12)).acceptCmd (s.die.ctxSel init) (v.toNat % 16) (Initiator.bank init), .done))) := by
  obtain ⟨hbus, hopen⟩ := hopens
  have hguard : guardOpen (s.seen k).ctl init (s.seen k).view.testLock (s.seen k).view.time 0x12 0x100 v := hopen
  have happlied : ∀ j : Inst, j.applyGuarded (Initiator.bank init) (s.die.ctxSel init) 0x12 0x100 v =
      (j.acceptCmd (s.die.ctxSel init) (v.toNat % 16) (Initiator.bank init), none) := fun j => if_pos hcmd
  rw [regWrite_guardB hbus rfl]
  refine congrArg _ (State.serve_congr ?_)
  rw [guardB_open hguard hw]
  simp only [happlied]

/-- Settles O45: each command of the control word. -/
theorem contextCommands : Obligations.ContextCommands := by
  intro init k s b x taken
  exact ⟨fun h => regWrite_command (v := 1) (by decide) h rfl, fun h => regWrite_command (v := 2) (by decide) h rfl,
    fun h => regWrite_command (v := 3) (by decide) h rfl, fun h => regWrite_command (v := 4) (by decide) h rfl,
    fun h => regWrite_command (v := 5) (by decide) h rfl⟩

/-! ### The die-wide pages -/

section DiePages

variable {init : Initiator} {page off : Nat} {v w : Word} {s : State} {d : Die}

/-- A write of a die-wide page that its initiator may make is done at once (R42). -/
theorem regWrite_die {g : Die → Die} (hbus : s.busDie init) (hpage : diePage page = true)
    (hallowed : allowed init s.die.testLock page off true = true) (hsmall : off < 0x1000) (haligned : off % 4 = 0)
    (heffect : dieWriteReg init page off w s.die s.insts = ((g s.die, s.insts), .done)) :
    regWrite init page off w s = .next ((s.changeDie g).reply true .done) := by
  obtain ⟨hdiv, hmod, hword⟩ := regKey_parts (page := page) hsmall haligned
  rw [regWrite, regAccess_die (w := some w) hbus hpage hdiv hmod hword hallowed]
  simp only [heffect]
  rfl

/-- A sequence of a die-wide page that will be accepted (R303). -/
def Die.opens (init : Initiator) (page off : Nat) (v : Word) (d : Die) : Prop :=
  (∃ t, d.ctl.guard (Initiator.bank init) page = { target := off, valueA := some v, timeA := t } ∧ d.time ≤ t + 64) ∧
    guarded page off = true ∧ mayWrite init d.testLock page off = true

/-- GUARD_B of an accepted sequence of a die-wide page that is not locked: the register takes the value (R303, R304). -/
theorem Die.guardB_opens (hopens : d.opens init page off v) (hw : w = ~~~v) (hunlocked : ¬ (page = 0x03 ∧ d.testLock = true)) :
    d.guardB init page w =
      (((d.ctlMap (CtlSt.guardEnd (Initiator.bank init) page)).applyGuarded (Initiator.bank init) page v).order (Initiator.bank init) page off v
        Ord.applied, .done) := by
  obtain ⟨⟨t, hguard, htime⟩, hguarded, hmay⟩ := hopens
  subst hw
  have hfault : (d.ctl.guard (Initiator.bank init) page).fault page d.time (~~~v) = none := by
    simp [hguard, Guard.fault, Nat.not_lt.mpr htime, hguarded]
  simp only [Die.guardB, hfault]
  simp only [hguard, hmay, Bool.not_true, Bool.false_eq_true, if_false, if_neg hunlocked, BitVec.not_not]

/-- The write of GUARD_B that completes a sequence of a die-wide page (R303). -/
theorem regWrite_dieGuardB {g : Die → Die} (hbus : s.busDie init) (hpage : diePage page = true) (hopens : s.die.opens init page off v)
    (hw : w = ~~~v) (hunlocked : ¬ (page = 0x03 ∧ s.die.testLock = true))
    (happlied : (s.die.ctlMap (CtlSt.guardEnd (Initiator.bank init) page)).applyGuarded (Initiator.bank init) page v = g s.die) :
    regWrite init page 0x024 w s = .next ((s.changeDie (fun d => (g d).order (Initiator.bank init) page off v Ord.applied)).reply true .done) := by
  refine regWrite_die hbus hpage rfl (by decide) rfl ?_
  have hguard := Die.guardB_opens hopens hw hunlocked
  rw [happlied] at hguard
  change (((s.die.guardB init page w).1, s.insts), (s.die.guardB init page w).2) = _
  rw [hguard]

/-- The deterministic-arithmetic lock is set once and logged (R71, R303). -/
theorem Die.applyGuarded_detLock {b : Nat} (hclear : d.detLock = false) :
    d.applyGuarded b 0x00 1 = Die.eventBy 0x0001 0x00 (some b) [] { d with detLock := true } := by
  simp [Die.applyGuarded, hclear]

/-- Set again it stays (R303). -/
theorem Die.applyGuarded_detLocked {b : Nat} (hset : d.detLock = true) : d.applyGuarded b 0x00 1 = d := by
  simp [Die.applyGuarded, hset]

/-- A LOCK of a die-wide page but the TEST page that is clear is set (R304). -/
theorem dieLock_sets {b : Nat} {i : Vector Inst 8} (hclear : d.ctl.locks.contains page = false) (htest : page ≠ 0x03) :
    dieLock b page 1 d i = (d.ctlMap (fun c => { c with locks := insertNat page c.locks }), i) := by
  refine (if_neg (by decide)).trans ?_
  rw [hclear, if_neg Bool.false_ne_true, if_neg htest]

/-- The production lock, where it is clear (R304, R355). -/
theorem dieLock_test {b : Nat} {i : Vector Inst 8} (hclear : d.ctl.locks.contains 0x03 = false) : dieLock b 0x03 1 d i = dieTestLock b d i := by
  refine (if_neg (by decide)).trans ?_
  rw [hclear]
  rfl

end DiePages

/-- A LOCK of a page of an `Inst` is set where it is clear, and frozen once set (R297, R304; log entry 115). -/
theorem Inst.writeLock_one {i : Inst} {b x page : Nat} :
    (i.ctl.locks.contains page = false → i.writeLock b x page 1 = i.ctlMap (fun c => { c with locks := insertNat page c.locks })) ∧
      (i.ctl.locks.contains page = true → i.writeLock b x page 1 = i.lockedOut b x page 0x01C 1) := by
  have hset : (!(1 : Word).getLsbD 0) = false := by decide
  refine ⟨fun hclear => ?_, fun hlocked => ?_⟩
  · simp only [Inst.writeLock, hset, hclear, Bool.false_eq_true, if_false]
  · simp only [Inst.writeLock, hset, hlocked, Bool.false_eq_true, if_false, if_true]

/-- Settles O47: the guarded registers of the die-wide pages, then LOCK at a page of an `Inst`, at a die-wide page, and at the TEST
page (log entry 115). -/
theorem locksAndDieGuards : Obligations.LocksAndDieGuards := by
  intro init k page w v s b dieOpens closed
  refine ⟨fun ⟨hbus, hopens⟩ hclear => ?det, fun ⟨hbus, hopens⟩ hset => ?detAgain, fun ⟨hbus, hopens⟩ hw hunlocked => ?mux,
    fun hbus hpage hmay => ?lock, fun hbus hpage htest hmay hclear => ?dieLock, fun hbus hmay hclear => ?testLock⟩
  case det =>
    exact regWrite_dieGuardB (g := fun d => Die.eventBy 0x0001 0x00 (some b) [] { closed 0x00 d with detLock := true }) hbus rfl hopens rfl
      (fun h => absurd h.1 (by decide)) (Die.applyGuarded_detLock hclear)
  case detAgain =>
    exact regWrite_dieGuardB (g := closed 0x00) hbus rfl hopens rfl (fun h => absurd h.1 (by decide))
      (Die.applyGuarded_detLocked hset)
  case mux =>
    exact regWrite_dieGuardB hbus rfl hopens hw (fun h => ne_true_of_eq_false hunlocked h.2) rfl
  case lock =>
    obtain ⟨hsets, hfrozen⟩ := Inst.writeLock_one (i := s.seen k) (b := b) (x := s.die.ctxSel init) (page := page)
    exact ⟨fun hclear => regWrite_pageHeader hbus hmay hpage (by decide) rfl (congrArg (·, BusRes.done) (hsets hclear)),
      fun hlocked => regWrite_pageHeader hbus hmay hpage (by decide) rfl (congrArg (·, BusRes.done) (hfrozen hlocked))⟩
  case dieLock =>
    exact regWrite_die hbus hpage hmay (by decide) rfl (congrArg (·, BusRes.done) (dieLock_sets hclear htest))
  case testLock =>
    change runDie (busAccess init 4 (regKey 0x03 0x01C) (some 1)) s = _
    rw [regAccess_die (page := 0x03) (off := 0x01C) (w := some 1) hbus rfl rfl rfl rfl hmay, State.changeAll_eq]
    have hwrite : dieWriteReg init 0x03 0x01C 1 s.die s.insts = (dieTestLock b s.die s.insts, .done) :=
      congrArg (·, BusRes.done) (dieLock_test hclear)
    simp only [hwrite]
    rfl

end Sys2Proof.Machine
end

section
/-! PROOFS. Reads with an effect and the registers of the die-wide pages (R330, R344, R354, R355, R357, R358, R360, R365, R403, R404). -/

namespace Sys2Proof.Machine

/-! ### Reads at a page of an `Inst` -/

section Read

variable {init : Initiator} {k : InstId} {page off : Nat} {s : State}

/-- A register behind the header of its page (R297). -/
def behindHeader (page off : Nat) : Bool := instPage page && decide (off < 0x1000) && decide (off % 4 = 0) && decide (0x100 ≤ off)

/-- The header of a page says nothing of a register behind it (R297). -/
theorem CtlSt.readHeader_behind {b status int : Nat} {c : CtlSt} (hbehind : 0x100 ≤ off) : c.readHeader b page off status int = none := by
  unfold CtlSt.readHeader
  split
  case h_11 => rfl
  all_goals omega

/-- A read that is served does what it makes of the `Inst` as it is seen, its counters brought up to date (R344). -/
theorem regRead_serve {g : Inst → Inst × BusRes} (hbehind : behindHeader page off = true) (hreads : s.reads init k page)
    (heffect : (let j := (s.seen k).counted (Initiator.bank init) page off
      (j.readEffect (Initiator.bank init) (s.die.ctxSel init) page off,
        BusRes.value (j.readReg (Initiator.bank init) (s.die.ctxSel init) page off))) = g (s.seen k)) :
    regRead init page off s = .next (s.serve k false g) := by
  simp only [behindHeader, Bool.and_eq_true, decide_eq_true_eq] at hbehind
  obtain ⟨⟨⟨hpage, hsmall⟩, haligned⟩, -⟩ := hbehind
  obtain ⟨hdiv, hmod, hword⟩ := regKey_parts (page := page) hsmall haligned
  rw [regRead_inst hreads hpage (diePage_eq_false hpage) hdiv hmod hword]
  exact congrArg _ (State.serve_congr heffect)

/-- The low register of a pair answers its low word and latches its high one (R344, R360). -/
theorem regRead_pair {v : Nat} (hbehind : behindHeader page off = true) (hreads : s.reads init k page) (htelem : page ≠ 0x20)
    (hpair : (s.seen k).pair (Initiator.bank init) (s.die.ctxSel init) page off = some v) :
    regRead init page off s = .next (s.serve k false (fun i =>
      ({ i with ctl := i.ctl.latch (Initiator.bank init) page (off + 4) (hi32 v) }, .value (lo32 v)))) := by
  have hplain : 0x100 ≤ off := by
    simp only [behindHeader, Bool.and_eq_true, decide_eq_true_eq] at hbehind
    exact hbehind.2
  have hcounted : (s.seen k).counted (Initiator.bank init) page off = s.seen k := if_neg fun h => htelem h.1
  refine regRead_serve hbehind hreads ?_
  simp only [hcounted, Inst.readEffect, Inst.readReg, hpair, CtlSt.readHeader_behind hplain]

/-- A data port answers the word its index names and moves the index on, from the last word to the first (R360, R386, R390, R397). -/
theorem regRead_port {sel low n : Nat} (hbehind : behindHeader page off = true) (hreads : s.reads init k page) (hcount : off ≠ 0x104)
    (hport : advancing page off = some (sel, low, n))
    (hpair : (s.seen k).pair (Initiator.bank init) (s.die.ctxSel init) page off = none) :
    regRead init page off s = .next (s.serve k false (fun i =>
      let b := Initiator.bank init
      let v := (i.ctl.stored b page sel).toNat
      let a := bits v (low + 4) low
      ({ i with ctl := i.ctl.store b page sel (w32 (v - 2 ^ low * a + 2 ^ low * ((a % n + 1) % n))) },
        .value (i.ctl.copyWord b page off (a % n))))) := by
  have hplain : 0x100 ≤ off := by
    simp only [behindHeader, Bool.and_eq_true, decide_eq_true_eq] at hbehind
    exact hbehind.2
  have hcounted : (s.seen k).counted (Initiator.bank init) page off = s.seen k := if_neg fun h => hcount h.2.1
  refine regRead_serve hbehind hreads ?_
  simp only [hcounted, Inst.readEffect, Inst.readReg, hpair, hport, CtlSt.readHeader_behind hplain]

/-- A counter's low register answers from the counters brought up to date and latches its high word (R344). -/
theorem regRead_counter (hreads : s.reads init k 0x20) :
    regRead init 0x20 0x104 s = .next (s.serve k false (fun i =>
      let b := Initiator.bank init
      let j := i.counted b 0x20 0x104
      ({ j with ctl := j.ctl.latch b 0x20 0x108 (w32 (j.counterOf b / 2 ^ 32)) }, .value (w32 (j.counterOf b % 2 ^ 32))))) :=
  regRead_serve rfl hreads rfl

/-- A read of a die-wide page (R42, R299). -/
theorem regRead_die {g : Die → Die} {v : Word} (hbus : s.busDie init) (hmay : mayRead init page = true) (hpage : diePage page = true)
    (hsmall : off < 0x1000) (haligned : off % 4 = 0) (heffect : s.die.readEffect (Initiator.bank init) page off = g s.die)
    (hvalue : s.die.readReg (Initiator.bank init) page off s.insts = v) :
    regRead init page off s = .next ((s.changeDie g).reply false (.value v)) := by
  obtain ⟨hdiv, hmod, hword⟩ := regKey_parts (page := page) hsmall haligned
  rw [regRead, regAccess_die (w := none) hbus hpage hdiv hmod hword hmay]
  simp only [hvalue, State.changeDie, heffect]

end Read

section Pairs

variable {i : Inst} {b x : Nat}

/-- The steps a context shows, each the low 48 bits of its number, 0 where there is none (R372, R374, R400). -/
theorem Inst.pair_baseStep {m : MapImage} (himage : i.image x = some m) : i.pair b x 0x12 0x10C = some (m.head.baseStep % 2 ^ 48) := by
  simp only [Inst.pair, himage]

theorem Inst.pair_baseStep_none (himage : i.image x = none) : i.pair b x 0x12 0x10C = some 0 := by
  simp only [Inst.pair, himage]

theorem Inst.pair_activeStep {a : Nat × List Word} (hset : i.activeSet x = some a) : i.pair b x 0x12 0x170 = some (a.1 % 2 ^ 48) := by
  simp only [Inst.pair, hset]

theorem Inst.pair_activeStep_none (hset : i.activeSet x = none) : i.pair b x 0x12 0x170 = some 0 := by
  simp only [Inst.pair, hset]

theorem Inst.pair_imageStep {c : ColdImage} (himage : i.cold.images.find? (fun c => c.ctx = i.view_ b 0x21 0x11C) = some c) :
    i.pair b x 0x21 0x128 = some (c.step % 2 ^ 48) := by
  simp only [Inst.pair, himage]

theorem Inst.pair_imageStep_none (himage : i.cold.images.find? (fun c => c.ctx = i.view_ b 0x21 0x11C) = none) :
    i.pair b x 0x21 0x128 = some 0 := by
  simp only [Inst.pair, himage]

end Pairs

section Receive

variable {d : Die} {b : Nat} {v : Vector Inst 8}

/-- RX_DATA answers the oldest character and takes it from the FIFO (R403). -/
theorem Die.rxData_takes {c : RxChar} {t : List RxChar} (hown : d.bridge = false) (hrx : d.uart.rx = c :: t) :
    d.readEffect b 0x02 0x100 = { d with uart := { d.uart with rx := t } } ∧
      d.readReg b 0x02 0x100 v = w32 (c.byte.toNat + 2 ^ 8 * (if c.framing then 1 else 0) + 2 ^ 9 * (if c.brk then 1 else 0) + 2 ^ 31) := by
  constructor
  · simp only [Die.readEffect, hown, hrx, Bool.false_eq_true, if_false, List.drop_succ_cons, List.drop_zero]
  · simp only [Die.readReg, CtlSt.readHeader, Die.readMuart, hrx, hown, b2n, Bool.false_eq_true, if_false]

/-- An empty FIFO reads 0 (R403). -/
theorem Die.rxData_empty (hown : d.bridge = false) (hrx : d.uart.rx = []) :
    d.readEffect b 0x02 0x100 = d ∧ d.readReg b 0x02 0x100 v = 0 := by
  have hsame : d.uart.rx.drop 1 = d.uart.rx := by rw [hrx]; rfl
  constructor
  · simp only [Die.readEffect, hown, hsame, Bool.false_eq_true, if_false]
  · simp only [Die.readReg, CtlSt.readHeader, Die.readMuart, hrx]

end Receive

/-- Settles O42: the pairs, the data ports and RX_DATA. -/
theorem readsWithEffect : Obligations.ReadsWithEffect := by
  refine ⟨?pairs, ?ports⟩
  case pairs =>
    intro init k s i b x latched
    refine ⟨fun h => ?step, fun h m himage => ?base, fun h himage => ?noBase, fun h a hset => ?active, fun h hset => ?noActive, fun h => ?floor,
      fun h c himage => ?image, fun h himage => ?noImage, regRead_counter, fun hbus hmay => ?time⟩
    case step => exact regRead_pair rfl h (by decide) rfl
    case base => exact regRead_pair rfl h (by decide) (Inst.pair_baseStep himage)
    case noBase => exact regRead_pair rfl h (by decide) (Inst.pair_baseStep_none himage)
    case active => exact regRead_pair rfl h (by decide) (Inst.pair_activeStep hset)
    case noActive => exact regRead_pair rfl h (by decide) (Inst.pair_activeStep_none hset)
    case floor => exact regRead_pair rfl h (by decide) rfl
    case image => exact regRead_pair rfl h (by decide) (Inst.pair_imageStep himage)
    case noImage => exact regRead_pair rfl h (by decide) (Inst.pair_imageStep_none himage)
    case time => exact regRead_die hbus hmay rfl (by decide) rfl rfl rfl
  case ports =>
    intro init k s b port
    refine ⟨fun h => ?param, fun h => ?emit, fun h => ?telem, fun hbus hmay => ?life,
      fun hbus hmay hown => ⟨fun c t hrx => ?char, fun hrx => ?empty⟩⟩
    case param => exact regRead_port rfl h (by decide) rfl rfl
    case emit => exact regRead_port rfl h (by decide) rfl rfl
    case telem => exact regRead_port rfl h (by decide) rfl rfl
    case life => exact regRead_die hbus hmay rfl (by decide) rfl rfl rfl
    case char =>
      obtain ⟨heffect, hvalue⟩ := Die.rxData_takes (b := b) (v := s.insts) hown hrx
      exact regRead_die (g := fun d => { d with uart := { d.uart with rx := t } }) hbus hmay rfl (by decide) rfl heffect hvalue
    case empty =>
      obtain ⟨heffect, hvalue⟩ := Die.rxData_empty (b := b) (v := s.insts) hown hrx
      exact regRead_die (g := id) hbus hmay rfl (by decide) rfl heffect hvalue

/-! ### Registers of the die-wide pages -/

section DieWrite

variable {init : Initiator} {page off : Nat} {w : Word} {s : State}

/-- A taken write of an unguarded register of a die-wide page does what its effect makes of the die (R42, R359). -/
theorem regWrite_dieTaken {r : Die × Vector Inst 8} (htaken : s.dieTakes init page off w) (hpage : diePage page = true) (hsmall : off < 0x1000)
    (haligned : off % 4 = 0) (hheader : off ≠ 0x010 ∧ off ≠ 0x01C ∧ off ≠ 0x020 ∧ off ≠ 0x024 ∧ off ≠ 0x028)
    (heffect : dieWriteEffect init page off (masked page off w) s.die s.insts = r) :
    regWrite init page off w s = .next (State.reply true .done { s with die := r.1, insts := r.2 }) := by
  obtain ⟨hbus, hallowed, hlisted⟩ := htaken
  obtain ⟨hdiv, hmod, hword⟩ := regKey_parts (page := page) hsmall haligned
  rw [regWrite, regAccess_die (w := some w) hbus hpage hdiv hmod hword hallowed]
  simp only [dieWriteReg_taken ⟨hbus, hallowed, hlisted⟩ hheader, heffect]

/-- The same where the effect changes the die-wide section alone. -/
theorem regWrite_dieChanged {g : Die → Die} (htaken : s.dieTakes init page off w) (hpage : diePage page = true) (hsmall : off < 0x1000)
    (haligned : off % 4 = 0) (hheader : off ≠ 0x010 ∧ off ≠ 0x01C ∧ off ≠ 0x020 ∧ off ≠ 0x024 ∧ off ≠ 0x028)
    (heffect : dieWriteEffect init page off (masked page off w) s.die s.insts = (g s.die, s.insts)) :
    regWrite init page off w s = .next ((s.changeDie g).reply true .done) :=
  regWrite_dieTaken htaken hpage hsmall haligned hheader heffect

/-- The same where it changes one `Inst` and then the die-wide section. -/
theorem regWrite_dieAndInst {k : InstId} {f : Inst → Inst} {g : Die → Die} (htaken : s.dieTakes init page off w) (hpage : diePage page = true)
    (hsmall : off < 0x1000) (haligned : off % 4 = 0) (hheader : off ≠ 0x010 ∧ off ≠ 0x01C ∧ off ≠ 0x020 ∧ off ≠ 0x024 ∧ off ≠ 0x028)
    (heffect : dieWriteEffect init page off (masked page off w) s.die s.insts =
      (g (onInst k f s.die s.insts).1, (onInst k f s.die s.insts).2)) :
    regWrite init page off w s = .next (((s.change k f).changeDie g).reply true .done) :=
  regWrite_dieTaken htaken hpage hsmall haligned hheader heffect

end DieWrite

section Effects

variable {init : Initiator} {k : InstId} {b : Nat} {w : Word} {d : Die} {v : Vector Inst 8}

/-- LIFE_ACK is stored and acknowledges a record of the `Inst` it names (R354, R365). -/
theorem dieWriteEffect_lifeAck :
    dieWriteEffect init 0x01 0x10C w d v =
      onInst (instNo (bits w.toNat 2 0)) (Inst.lifeAck (bits w.toNat 31 8)) (d.ctlMap (CtlSt.store (Initiator.bank init) 0x01 0x10C w)) v := rfl

/-- The eight EPOCH registers, one for each `Inst` (R365). -/
theorem dieWriteEffect_epoch :
    dieWriteEffect init 0x01 (0x110 + 4 * k.val) w d v =
      (if (v[k]).pw.start = .epoch then
        ((onInst k (Inst.setEpoch d.pll w) d v).1.eventBy 0x0102 0x01 (some (Initiator.bank init))
          [(20, 1, k.val), (24, 4, (w.toNat + 1) % 2 ^ 32)], (onInst k (Inst.setEpoch d.pll w) d v).2)
      else (d.ignored (Initiator.bank init) 0x01 (0x110 + 4 * k.val) w, v)) := by
  fin_cases k <;> rfl

/-- A character enters the transmit FIFO while the UART is not the bridge's and it has room (R357, R403). -/
theorem Die.txData_enters (hown : d.bridge = false) (hroom : d.uart.tx.length < 16) :
    d.txData b w = { d with uart := { d.uart with tx := d.uart.tx ++ [BitVec.ofNat 8 w.toNat] } } := by
  have htaken : (d.bridge || decide (16 ≤ d.uart.tx.length)) = false := by simp [hown, hroom]
  exact if_neg (ne_true_of_eq_false htaken)

/-- Any other is lost and logged (R403). -/
theorem Die.txData_lost (hlost : d.bridge = true ∨ 16 ≤ d.uart.tx.length) :
    d.txData b w = d.eventBy 0x0202 0x02 (some b) [(20, 1, w.toNat % 256)] :=
  if_pos (by simpa using hlost)

/-- A divisor of 0 is ignored (R403). -/
theorem Die.muartCtl_ignored (hzero : w.toNat % 2 ^ 16 = 0) : d.muartCtl b w = d.ignored b 0x02 0x018 w := if_pos hzero

/-- CTL that leaves BRIDGE as it is (R403). -/
theorem Die.muartCtl_stores (hdiv : w.toNat % 2 ^ 16 ≠ 0) (hsame : (d.ctlMap (CtlSt.store b 0x02 0x018 w)).bridge = d.bridge) :
    d.muartCtl b w = d.ctlMap (CtlSt.store b 0x02 0x018 w) :=
  (if_neg hdiv).trans (if_pos hsame)

/-- CTL that changes BRIDGE empties the FIFOs and the frame (R358, R403). -/
theorem Die.muartCtl_handsOver (hdiv : w.toNat % 2 ^ 16 ≠ 0) (hchange : (d.ctlMap (CtlSt.store b 0x02 0x018 w)).bridge ≠ d.bridge) :
    d.muartCtl b w =
      (let e := d.ctlMap (CtlSt.store b 0x02 0x018 w)
       { e with uart := { e.uart with rx := [], tx := [], frame := [], waiting := false } }) :=
  (if_neg hdiv).trans (if_neg hchange)

/-- MUX_SEL drives the pins while the multiplexer owns them (R355). -/
theorem Die.muxSel_drives (howns : d.pins.muxOwns = true) (hstill : d.pins.switching = false) :
    d.muxSel b v w = (d.ctlMap (CtlSt.store b 0x03 0x104 w)).drive v := by
  refine if_pos ?_
  change (d.pins.muxOwns && !d.pins.switching) = true
  rw [howns, hstill]
  rfl

/-- While it does not, the selection is stored alone (R355). -/
theorem Die.muxSel_stores (hother : d.pins.muxOwns = false ∨ d.pins.switching = true) :
    d.muxSel b v w = d.ctlMap (CtlSt.store b 0x03 0x104 w) := by
  refine if_neg ?_
  change ¬ (d.pins.muxOwns && !d.pins.switching) = true
  obtain howns | hswitch := hother
  · simp [howns]
  · simp [hswitch]

end Effects

/-- Settles O48: each register by the state its effect depends on. -/
theorem dieRegisters : Obligations.DieRegisters := by
  intro init k w s b
  refine ⟨fun h => ?ack, fun h => ?epoch, fun h => ?tx, fun h => ?ctl, fun h => ?mux⟩
  case ack =>
    have hexec := regWrite_dieTaken h rfl (by decide) rfl (by decide) dieWriteEffect_lifeAck
    exact hexec
  case epoch =>
    intro v
    have hlt : k.val < 8 := k.isLt
    refine ⟨fun hepoch => ?_, fun hpast => ?_⟩
    · exact regWrite_dieAndInst (f := Inst.setEpoch s.die.pll v)
        (g := Die.eventBy 0x0102 0x01 (some b) [(20, 1, k.val), (24, 4, (v.toNat + 1) % 2 ^ 32)]) h rfl (by omega) (by omega) (by omega)
        (dieWriteEffect_epoch.trans (if_pos hepoch))
    · exact regWrite_dieChanged (g := Die.ignored b 0x01 (0x110 + 4 * k.val) v) h rfl (by omega) (by omega) (by omega)
        (dieWriteEffect_epoch.trans (if_neg hpast))
  case tx =>
    intro c
    refine ⟨fun hown hroom => ?_, fun hlost => ?_⟩
    · exact regWrite_dieChanged (g := fun d => { d with uart := { d.uart with tx := d.uart.tx ++ [BitVec.ofNat 8 c] } }) h rfl (by decide) rfl
        (by decide) (congrArg (·, s.insts) (Die.txData_enters hown hroom))
    · exact regWrite_dieChanged h rfl (by decide) rfl (by decide) (congrArg (·, s.insts) (Die.txData_lost hlost))
  case ctl =>
    intro v e
    refine ⟨fun hzero => ?_, fun hdiv hsame => ?_, fun hdiv hchange => ?_⟩
    · exact regWrite_dieChanged h rfl (by decide) rfl (by decide) (congrArg (·, s.insts) (Die.muartCtl_ignored hzero))
    · exact regWrite_dieChanged (g := fun _ => e) h rfl (by decide) rfl (by decide) (congrArg (·, s.insts) (Die.muartCtl_stores hdiv hsame))
    · exact regWrite_dieChanged (g := fun _ => { e with uart := { e.uart with rx := [], tx := [], frame := [], waiting := false } }) h rfl
        (by decide) rfl (by decide) (congrArg (·, s.insts) (Die.muartCtl_handsOver hdiv hchange))
  case mux =>
    intro e
    refine ⟨fun howns hstill => ?_, fun hother => ?_⟩
    · exact regWrite_dieChanged (g := fun _ => e.drive s.insts) h rfl (by decide) rfl (by decide)
        (congrArg (·, s.insts) (Die.muxSel_drives howns hstill))
    · exact regWrite_dieChanged (g := fun _ => e) h rfl (by decide) rfl (by decide) (congrArg (·, s.insts) (Die.muxSel_stores hother))

end Sys2Proof.Machine
end

section
/-! PROOFS. The pins, the UART and the register bridge (R42, R296, R299, R356 to R358, R403, R405). -/

namespace Sys2Proof.Machine

/-! ### Pins and UART -/

section Pins

variable {s : State} {d : Die} {v : Vector Inst 8} {c : Byte} {stop : Bool}

/-- A command of a running die that concerns the die-wide section alone makes any change that agrees with its own on it. -/
theorem runDie_changeDie {f : Die → Vector Inst 8 → Die} {g : Die → Die} (hs : s.supply = .on) (h : f s.die s.insts = g s.die) :
    runDie (fun d v => (f d v, v)) s = .next (s.changeDie g) := by
  rw [runDie_on hs, h]
  rfl

/-- PIN_HANDOVER is the end of a hand-over, UART_RECEIVE a character at the receiver (R356, R357). -/
theorem execPinHandover_changes {g : Die → Die} (hs : s.supply = .on) (h : s.die.handover s.insts = g s.die) :
    execPinHandover s = .next (s.changeDie g) :=
  runDie_changeDie (f := fun d v => d.handover v) hs h

theorem execUartReceive_changes {g : Die → Die} (hs : s.supply = .on) (h : s.die.receive c stop = g s.die) :
    execUartReceive c stop s = .next (s.changeDie g) :=
  runDie_changeDie (f := fun d _ => d.receive c stop) hs h

/-- Where no hand-over runs, none ends (R356). -/
theorem Die.handover_still (hstill : d.pins.switching = false) : d.handover v = d := if_neg (ne_true_of_eq_false hstill)

/-- The pins go to the side that the multiplexer's enable names, and a change of sides is logged (R356, R405). -/
theorem Die.handover_ends (hswitch : d.pins.switching = true) :
    (d.muxEn ≠ d.pins.muxOwns → d.handover v =
      (Die.event 0x0302 [(20, 1, if d.muxEn then 1 else 0)] { d with pins := { muxOwns := d.muxEn, switching := false } }).drive v) ∧
      (d.muxEn = d.pins.muxOwns → d.handover v = Die.drive v { d with pins := { muxOwns := d.muxEn, switching := false } }) := by
  refine ⟨fun hchange => ?_, fun hsame => ?_⟩
  · exact (if_pos hswitch).trans (congrArg (Die.drive v) (if_neg hchange))
  · exact (if_pos hswitch).trans (congrArg (Die.drive v) (if_pos hsame))

/-- A character received while the UART has not got the pins is none (R356). -/
theorem Die.receive_unowned (hother : d.uartOwns = false) : d.receive c stop = d :=
  if_pos (by simp [hother])

/-- The character as the receiver found it: a missing stop bit is a framing error, with a byte of zeros a break (R403). -/
def charOf (c : Byte) (stop : Bool) : RxChar := { byte := c, framing := !stop, brk := !stop && c == 0 }

section Owned

variable (howns : d.uartOwns = true)
include howns

/-- A character enters a FIFO of 16 or counts as an overrun (R357, R403). -/
theorem Die.receive_fifo (hown : d.bridge = false) :
    (d.uart.rx.length < 16 → d.receive c stop = { d with uart := { d.uart with rx := d.uart.rx ++ [charOf c stop] } }) ∧
      (16 ≤ d.uart.rx.length → d.receive c stop = { d with uart := { d.uart with overruns := d.uart.overruns + 1 } }) := by
  refine ⟨fun hroom => ?_, fun hfull => ?_⟩
  · simp only [Die.receive, howns, hown, if_neg (Nat.not_le.mpr hroom), Bool.not_true, Bool.false_and, Bool.false_eq_true, if_false]
    rfl
  · simp only [Die.receive, howns, hown, if_pos hfull, Bool.not_true, Bool.false_and, Bool.false_eq_true, if_false]

/-- The bridge takes it into the frame in progress (R358). -/
theorem Die.receive_bridge (hown : d.bridge = true) (hidle : d.uart.waiting = false) (hopen : frameWhole d.uart.frame = false) :
    d.receive c stop = d.bridgeByte (charOf c stop) := by
  simp only [Die.receive, howns, hown, hidle, hopen, Bool.not_true, Bool.not_false, Bool.and_self, Bool.false_eq_true, if_false, if_true]
  rfl

end Owned

/-- The transmitter sends its oldest character while the UART has the pins (R356, R357). -/
theorem execUartTransmit_sends {t : Bytes} (hs : s.supply = .on) (howns : s.die.uartOwns = true) (htx : s.die.uart.tx = c :: t) :
    execUartTransmit s = .next (s.changeDie (fun d => Die.emitOut (.uart c) { d with uart := { d.uart with tx := t } })) := by
  rw [execUartTransmit, runDie_on hs]
  simp only [htx, howns, if_true]
  rfl

/-- Without the pins or without a character it sends nothing (R356). -/
theorem execUartTransmit_holds (hs : s.supply = .on) (hnone : s.die.uartOwns = false ∨ s.die.uart.tx = []) : execUartTransmit s = .next s := by
  rw [execUartTransmit, runDie_on hs]
  cases htx : s.die.uart.tx with
  | nil => rfl
  | cons c t =>
    have hother : s.die.uartOwns = false := hnone.resolve_right (by simp [htx])
    simp only [hother, Bool.false_eq_true, if_false]

end Pins

/-- Settles O49: the hand-over by whether one runs and changes sides, the receiver and the transmitter by who has the pins. -/
theorem pinsAndUart : Obligations.PinsAndUart := by
  intro c stop s hs
  refine ⟨fun hstill => ?still, fun hswitch hchange => ?change, fun hswitch hsame => ?same, fun hother => ⟨?unheard, ?unsent⟩,
    fun howns => ?owned⟩
  case still => exact execPinHandover_changes (g := id) hs (Die.handover_still hstill)
  case change => exact execPinHandover_changes hs ((Die.handover_ends hswitch).1 hchange)
  case same => exact execPinHandover_changes hs ((Die.handover_ends hswitch).2 hsame)
  case unheard => exact execUartReceive_changes (g := id) hs (Die.receive_unowned hother)
  case unsent => exact execUartTransmit_holds hs (.inl hother)
  case owned =>
    intro x
    refine ⟨fun hown hroom => ?_, fun hown hfull => ?_, fun hown hidle hopen => ?_, fun h t htx => ?_, fun htx => ?_⟩
    · exact execUartReceive_changes hs ((Die.receive_fifo howns hown).1 hroom)
    · exact execUartReceive_changes hs ((Die.receive_fifo howns hown).2 hfull)
    · exact execUartReceive_changes hs (Die.receive_bridge howns hown hidle hopen)
    · exact execUartTransmit_sends hs howns htx
    · exact execUartTransmit_holds hs (.inr htx)

/-! ### Who owns the UART after an access -/

section Owner

variable {c : CtlSt} {d : Die} {b page off key : Nat} {w : Word}

/-- A register that another key is written to holds what it held. -/
theorem CtlSt.stored_put (hbank : bankKey b page off ≠ key) (hshared : regKey page off ≠ key) :
    ({ c with regs := c.regs.put key w } : CtlSt).stored b page off = c.stored b page off := by
  simp only [CtlSt.stored, Tbl.find_put_other hbank, Tbl.find_put_other hshared]

theorem CtlSt.stored_store {b' page' off' : Nat} (hbank : bankKey b page off ≠ bankKey b' page' off' ∧ bankKey b page off ≠ regKey page' off')
    (hshared : regKey page off ≠ bankKey b' page' off' ∧ regKey page off ≠ regKey page' off') :
    (c.store b' page' off' w).stored b page off = c.stored b page off := by
  obtain ⟨hbanks, hbankReg⟩ := hbank
  obtain ⟨hregBank, hregs⟩ := hshared
  refine CtlSt.stored_put ?_ ?_
  · split_ifs
    · exact hbanks
    · exact hbankReg
  · split_ifs
    · exact hregBank
    · exact hregs

/-- The UART's owner is what BRIDGE in CTL of the MUART page says (R403): a change of the die that leaves CTL leaves the owner. -/
theorem Die.bridge_congr {e : Die} (h : e.ctl.stored 0 0x02 0x018 = d.ctl.stored 0 0x02 0x018) : e.bridge = d.bridge := by
  simp only [Die.bridge, Die.reg, h]

/-- What a read of a die-wide page latches or advances leaves BRIDGE (R360). -/
theorem Die.readEffect_bridge : (d.readEffect b page off).bridge = d.bridge := by
  unfold Die.readEffect
  split
  · exact Die.bridge_congr (CtlSt.stored_put (by simp only [bankKey, regKey]; omega) (by simp only [bankKey, regKey]; omega))
  case h_6 =>
    refine Die.bridge_congr (CtlSt.stored_store ⟨?_, ?_⟩ ⟨?_, ?_⟩)
    all_goals simp only [bankKey, regKey]; omega
  case h_7 =>
    split
    · rfl
    · rfl
  all_goals rfl

/-- A counter of the die is none of its registers. -/
theorem Die.count_bridge {n m : Nat} : (d.count n m).bridge = d.bridge := by
  unfold Die.count
  split
  · rfl
  · rfl

/-- An event of the die, an entry of its order log, and the notice of a life record leave BRIDGE (R301, R307, R354). -/
theorem Die.eventBy_bridge {code : Nat} {init : Option Nat} {args : List (Nat × Nat × Nat)} :
    (d.eventBy code page init args).bridge = d.bridge := by
  unfold Die.eventBy
  rw [Die.count_bridge, Die.count_bridge]
  rfl

theorem Die.refuse_bridge : (d.refuse b page off w).bridge = d.bridge := by
  unfold Die.refuse Die.order
  rw [Die.count_bridge, Die.count_bridge]
  rfl

theorem Die.lifeNotice_bridge {n : Nat} {i j : Inst} : (d.lifeNotice n i j).bridge = d.bridge := by
  unfold Die.lifeNotice
  split
  · rfl
  · exact Die.eventBy_bridge

end Owner

/-! ### The register bridge -/

section Bridge

variable {s : State} {d e : Die} {v u : Vector Inst 8} {k : InstId} {op : Byte} {r : BusRes} {a : Stalled}

/-- The access a whole frame asks for, as DBG (R358). -/
def Die.frameAccess (op : Byte) (d : Die) : Stalled :=
  { init := .dbg, bridge := true, ctx := d.ctxSel .dbg, addr := field 1 3 d.uart.frame,
    write := if op = 0x57 then some (w32 (field 4 4 d.uart.frame)) else none }

theorem Die.frameAccess_write : (d.frameAccess op).write.isSome = (op == 0x57) := by
  by_cases hop : op = 0x57
  · rw [Die.frameAccess, if_pos hop, hop]; rfl
  · rw [Die.frameAccess, if_neg hop, beq_false_of_ne hop]; rfl

/-- An access of the bridge that ends at once, and leaves BRIDGE, is answered (R358). -/
theorem runDie_bridge (hbus : s.busDie .dbg) (hbridge : s.die.bridge = true) (hidle : s.die.uart.waiting = false)
    (hdone : frameDone op s.die.uart.frame = true)
    (hrun : busRun 4 (s.die.target .dbg) (s.die.frameAccess op) s.die s.insts = ((e, u), r)) (hends : r ≠ .stalled)
    (hkept : e.bridge = s.die.bridge) :
    runDie (bridgeRun op) s = .next { s with die := e.bridgeEnd (op == 0x57) r, insts := u } := by
  obtain ⟨hs, hfree⟩ := hbus
  have hgo : (s.die.bridge && !s.die.uart.waiting && frameDone op s.die.uart.frame && !initStalled .dbg s.insts) = true := by
    simp [hbridge, hidle, hdone, hfree]
  have hbridged : bridgeRun op s.die s.insts = (e.bridgeEnd (op == 0x57) r, u) := by
    rw [← Die.frameAccess_write (d := s.die)]
    unfold Die.frameAccess at hrun ⊢
    simp only [bridgeRun, hgo, if_true, hrun]
    cases r with
    | stalled => exact absurd rfl hends
    | _ => simp only [hkept, hbridge, if_true]
  rw [runDie_on hs, hbridged]

/-- An access that is aligned and of one word is one of a die-wide page or of a page of an `Inst` (R295, R296). -/
theorem busRun_die (haligned : a.addr % 4 = 0) (hpage : diePage (a.addr / 0x1000) = true) : busRun 4 k a d v = dieAccess a d v :=
  (if_neg (by simp [haligned])).trans (if_pos hpage)

theorem busRun_misaligned (hbad : a.addr % 4 ≠ 0) : busRun 4 k a d v = ((d, v), .error) := if_pos (.inr hbad)

/-- An ACTIVE `Inst` performs an access that its initiator may make (R42, R299). -/
theorem busRun_active (haligned : a.addr % 4 = 0) (hpage : instPage (a.addr / 0x1000) = true) (hact : (v[k]).pw.state = .active)
    (hallowed : allowed a.init d.testLock (a.addr / 0x1000) (a.addr % 0x1000) a.write.isSome = true) :
    busRun 4 k a d v = accessAt k a d v := by
  have hreach : (v[k]).reach (a.addr / 0x1000) = .serve := by simp only [Inst.reach, hact]
  have hone : ¬ ((4 : Nat) ≠ 4 ∨ a.addr % 4 ≠ 0) := by simp [haligned]
  simp only [busRun, if_neg hone, diePage_eq_false hpage, hpage, instAccess, hreach, hallowed, Bool.not_true, Bool.false_eq_true, if_false,
    if_true, reduceCtorEq]

/-- The access as the `Inst` ends it: the change of the `Inst`, the notice of a life record, and COLD_PRIV carried to the die (R289). -/
theorem accessAt_ends {p : Inst × BusRes} (haccess : (s.seen k).access a.init a.ctx a.addr a.write = p) :
    accessAt k a s.die s.insts =
      (({ s.die.lifeNotice k.val s.insts[k] p.1.arrange with coldPriv := p.1.view.coldPriv }, s.insts.set k p.1.arrange), p.2) := by
  subst haccess
  rfl

/-- What an ACTIVE `Inst` makes of a read and of a write (R296). -/
theorem Inst.access_active {i : Inst} {init : Initiator} {x addr : Nat} (hact : i.pw.state = .active) :
    (i.access init x addr none =
      (let j := i.counted (Initiator.bank init) (addr / 0x1000) (addr % 0x1000)
       (j.readEffect (Initiator.bank init) x (addr / 0x1000) (addr % 0x1000),
         .value (j.readReg (Initiator.bank init) x (addr / 0x1000) (addr % 0x1000))))) ∧
      ∀ w, i.access init x addr (some w) = i.writeReg init x (addr / 0x1000) (addr % 0x1000) w := by
  have hreach : i.reach (addr / 0x1000) = .serve := by simp only [Inst.reach, hact]
  refine ⟨?_, fun w => ?_⟩
  · simp only [Inst.access, hreach]
  · simp only [Inst.access, hreach]

/-- An `Inst` that an initiator's accesses reach is ACTIVE as it is seen (R42). -/
theorem State.busTo_active {init : Initiator} (hbus : s.busTo init k) : (s.seen k).pw.state = .active := by
  obtain ⟨-, -, -, hact⟩ := hbus
  exact hact

/-- The bridge's access at a page of an ACTIVE `Inst` (R358). -/
theorem runDie_bridgeInst {p : Inst × BusRes} (hbus : s.busTo .dbg k) (hbridge : s.die.bridge = true) (hidle : s.die.uart.waiting = false)
    (hdone : frameDone op s.die.uart.frame = true) (haligned : (s.die.frameAccess op).addr % 4 = 0)
    (hpage : instPage ((s.die.frameAccess op).addr / 0x1000) = true)
    (hallowed : allowed .dbg s.die.testLock ((s.die.frameAccess op).addr / 0x1000) ((s.die.frameAccess op).addr % 0x1000)
      (s.die.frameAccess op).write.isSome = true)
    (haccess : (s.seen k).access .dbg (s.die.ctxSel .dbg) (s.die.frameAccess op).addr (s.die.frameAccess op).write = p) (hends : p.2 ≠ .stalled) :
    runDie (bridgeRun op) s = .next ({ s with
      die := Die.bridgeEnd (op == 0x57) p.2 { s.die.lifeNotice k.val s.insts[k] p.1.arrange with coldPriv := p.1.view.coldPriv },
      insts := s.insts.set k p.1.arrange } : State) := by
  obtain ⟨hs, hfree, htarget, hact⟩ := hbus
  refine runDie_bridge ⟨hs, hfree⟩ hbridge hidle hdone ?_ hends (Die.lifeNotice_bridge (i := s.insts[k]) (j := p.1.arrange))
  rw [htarget, busRun_active haligned hpage hact hallowed]
  exact accessAt_ends haccess

end Bridge

/-- Settles O50: a frame by its page, by the rights of DBG and by its alignment, and the timeout of one in progress. -/
theorem bridgeFrames : Obligations.BridgeFrames := by
  intro k s hbridge hidle a w page off x served
  refine ⟨fun hbus hdone haligned hpage => ?dieRead, fun hbus hdone haligned hpage => ?instRead,
    fun hbus hdone haligned hpage hallowed hends => ?instWrite, fun hbus hdone haligned hpage hrefused => ?refused,
    fun hbus op hop hdone hbad => ?misaligned, fun hs hopen hpart => ?timeout⟩
  case dieRead =>
    exact runDie_bridge (r := .value (s.die.readReg 3 page off s.insts)) hbus hbridge hidle hdone
      ((busRun_die haligned hpage).trans rfl) (by simp) Die.readEffect_bridge
  case instRead =>
    intro i
    obtain ⟨hread, -⟩ := Inst.access_active (init := .dbg) (x := x) (addr := a) (State.busTo_active hbus)
    exact runDie_bridgeInst hbus hbridge hidle hdone haligned hpage rfl hread (by simp)
  case instWrite =>
    obtain ⟨-, hwrite⟩ := Inst.access_active (init := .dbg) (x := x) (addr := a) (State.busTo_active hbus)
    exact runDie_bridgeInst hbus hbridge hidle hdone haligned hpage hallowed (hwrite w) (hends w)
  case refused =>
    have hrun : busRun 4 (s.die.target .dbg) (s.die.frameAccess 0x57) s.die s.insts = ((s.die.refuse 3 page off w, s.insts), .refused) :=
      (busRun_die haligned hpage).trans (if_pos (congrArg (!·) hrefused))
    exact runDie_bridge hbus hbridge hidle hdone hrun (by simp) Die.refuse_bridge
  case misaligned =>
    obtain rfl | rfl := hop
    · exact runDie_bridge hbus hbridge hidle hdone (busRun_misaligned hbad) (by simp) rfl
    · exact runDie_bridge hbus hbridge hidle hdone (busRun_misaligned hbad) (by simp) rfl
  case timeout =>
    have hpartial : (s.die.bridge && !s.die.uart.frame.isEmpty && !frameWhole s.die.uart.frame) = true := by
      simp [hbridge, hopen, hpart]
    exact runDie_changeDie (f := fun d _ => if d.bridge && !d.uart.frame.isEmpty && !frameWhole d.uart.frame then d.bridgeDiscard 4 else d) hs
      (if_pos hpartial)

end Sys2Proof.Machine
end
